-- ==== Sys2Proof/Word.lean ====
section
/-! DEFINITION. Bytes, the part's small index types, fixed-size tables and clock times. -/

namespace Sys2Proof

/-- One byte of a message. -/
abbrev Byte := BitVec 8

/-- Lane 0 to lane 3 (00_scope.md, Conventions). -/
abbrev LaneNo := Fin 4

/-- Route 0 to route 3. -/
abbrev RouteNo := Fin 4

/-- Key family 0 to 7. -/
abbrev FamilyNo := Fin 8

/-- Terminal 0 to 63. -/
abbrev TerminalNo := Fin 64

/-- A time of the store clock: a day and a second of day (R137). -/
structure ClockTime where
  day : Nat
  sec : Nat
deriving DecidableEq, Repr

/-- The entry of a table at an index. -/
def Vec.get {α : Type} {n : Nat} (v : Vector α n) (i : Fin n) : α := v[i]

/-- The table with one entry replaced. -/
def Vec.put {α : Type} {n : Nat} (v : Vector α n) (i : Fin n) (a : α) : Vector α n := v.set i a

/-- The table whose entries a function of the index gives. -/
@[irreducible] def Vec.gen {α : Type} {n : Nat} (f : Fin n → α) : Vector α n := Vector.ofFn f

end Sys2Proof
end

