-- ==== Sys2Proof/Syntax.lean ====
section
/-! DEFINITION. The commands of the part: one constructor per row of spec/opcode_table.json.

A request carries the link it came in on, its correlation number and the bytes of its payload, so that every payload
length and every field value can be sent. An event of the part itself carries what names the unit it happens to. -/

namespace Sys2Proof

/-- The six links (R150). -/
inductive LinkId where
  | lane (i : LaneNo)
  | dispatch
  | service
deriving DecidableEq, Repr

/-- A character on a receive line: a byte, or a byte whose stop bit is missing (R151). -/
inductive LineChar where
  | byte (b : Byte)
  | noStop
deriving DecidableEq, Repr

/-- The commands. -/
inductive Instr where
  /-- AUTH (R60): a lane's request. -/
  | auth (l : LinkId) (corr : Byte) (p : List Byte)
  /-- REFUND (R60). -/
  | refund (l : LinkId) (corr : Byte) (p : List Byte)
  /-- REVERSAL (R60). -/
  | reversal (l : LinkId) (corr : Byte) (p : List Byte)
  /-- LANE_STATUS (R62). -/
  | laneStatus (l : LinkId) (corr : Byte) (p : List Byte)
  /-- LINK_RESET (R159). -/
  | linkReset (l : LinkId) (corr : Byte) (p : List Byte)
  /-- FRAME_BAD (R153): the characters received on the link up to the one at which the frame is found bad. -/
  | frameBad (l : LinkId) (chars : List LineChar)
  /-- BREAK (R158). -/
  | lineBreak (l : LinkId)
  /-- BREAK_END (R158). -/
  | lineBreakEnd (l : LinkId)
  /-- GRANT (R65). -/
  | grant
  /-- COMPLETION (R90). -/
  | completion
  /-- ENROL (R4). -/
  | enrol (l : LinkId) (corr : Byte) (p : List Byte)
  /-- HOLD_TERMINAL (R5). -/
  | holdTerminal (l : LinkId) (corr : Byte) (p : List Byte)
  /-- RELEASE_TERMINAL (R6). -/
  | releaseTerminal (l : LinkId) (corr : Byte) (p : List Byte)
  /-- MOVE (R8). -/
  | move (l : LinkId) (corr : Byte) (p : List Byte)
  /-- RETIRE (R10). -/
  | retire (l : LinkId) (corr : Byte) (p : List Byte)
  /-- SET_FLOOR (R9). -/
  | setFloor (l : LinkId) (corr : Byte) (p : List Byte)
  /-- TERMINAL_QUERY (R12). -/
  | terminalQuery (l : LinkId) (corr : Byte) (p : List Byte)
  /-- KEY_LOAD (R28). -/
  | keyLoad (l : LinkId) (corr : Byte) (p : List Byte)
  /-- LOAD_COMPLETION (R29) of a family. -/
  | loadCompletion (f : FamilyNo)
  /-- ROLL_FAMILY (R31). -/
  | rollFamily (l : LinkId) (corr : Byte) (p : List Byte)
  /-- ROLL_COMPLETION (R32) of a family. -/
  | rollCompletion (f : FamilyNo)
  /-- RETIRE_FAMILY (R35). -/
  | retireFamily (l : LinkId) (corr : Byte) (p : List Byte)
  /-- FAMILY_QUERY (R36). -/
  | familyQuery (l : LinkId) (corr : Byte) (p : List Byte)
  /-- SET_CEILING (R46). -/
  | setCeiling (l : LinkId) (corr : Byte) (p : List Byte)
  /-- HOLD_LANE (R69). -/
  | holdLane (l : LinkId) (corr : Byte) (p : List Byte)
  /-- RELEASE_LANE (R69). -/
  | releaseLane (l : LinkId) (corr : Byte) (p : List Byte)
  /-- ROUTE_UP (R117). -/
  | routeUp (l : LinkId) (corr : Byte) (p : List Byte)
  /-- ROUTE_DOWN (R118). -/
  | routeDown (l : LinkId) (corr : Byte) (p : List Byte)
  /-- PULL_ONE (R122). -/
  | pullOne (l : LinkId) (corr : Byte) (p : List Byte)
  /-- PULL_BLOCK (R123). -/
  | pullBlock (l : LinkId) (corr : Byte) (p : List Byte)
  /-- STREAM_OPEN (R124). -/
  | streamOpen (l : LinkId) (corr : Byte) (p : List Byte)
  /-- STREAM_CLOSE (R124). -/
  | streamClose (l : LinkId) (corr : Byte) (p : List Byte)
  /-- STREAM_OFFER (R125) by the transmitter of a link. -/
  | streamOffer (l : LinkId)
  /-- TRANSMIT_COMPLETE (R126) of a link's transmitter. -/
  | transmitComplete (l : LinkId)
  /-- ACK_ONE (R127). -/
  | ackOne (l : LinkId) (corr : Byte) (p : List Byte)
  /-- ACK_OLDEST (R128). -/
  | ackOldest (l : LinkId) (corr : Byte) (p : List Byte)
  /-- ACK_THROUGH (R129). -/
  | ackThrough (l : LinkId) (corr : Byte) (p : List Byte)
  /-- ACK_TIMER_EXPIRY (R132) of a route's timer. -/
  | ackTimerExpiry (r : RouteNo)
  /-- TICK (R137). -/
  | tick
  /-- NEAR_WARNING (R141). -/
  | nearWarning
  /-- CUTOVER_MATCH (R143). -/
  | cutoverMatch
  /-- CUTOVER_CLOSING_START (R142). -/
  | cutoverClosingStart
  /-- CUTOVER_ROUTE_CLOSE (R144). -/
  | cutoverRouteClose
  /-- CUTOVER_FAMILY_ROLL (R145). -/
  | cutoverFamilyRoll
  /-- SET_CLOCK (R138). -/
  | setClock (l : LinkId) (corr : Byte) (p : List Byte)
  /-- SET_CUTOVER (R139). -/
  | setCutover (l : LinkId) (corr : Byte) (p : List Byte)
  /-- CLOSE_BATCH (R146). -/
  | closeBatch (l : LinkId) (corr : Byte) (p : List Byte)
  /-- DEFERRED_CLOSE (R111) of a route. -/
  | deferredClose (r : RouteNo)
  /-- SETUP_BEGIN (R163). -/
  | setupBegin (l : LinkId) (corr : Byte) (p : List Byte)
  /-- ROUTE_DEFINE (R164). -/
  | routeDefine (l : LinkId) (corr : Byte) (p : List Byte)
  /-- SETUP_END (R165). -/
  | setupEnd (l : LinkId) (corr : Byte) (p : List Byte)
  /-- STATUS_READ (R168). -/
  | statusRead (l : LinkId) (corr : Byte) (p : List Byte)
  /-- FAULT_READ (R169). -/
  | faultRead (l : LinkId) (corr : Byte) (p : List Byte)
  /-- ROUTE_QUERY (R170). -/
  | routeQuery (l : LinkId) (corr : Byte) (p : List Byte)
  /-- ERASE (R173). -/
  | erase (l : LinkId) (corr : Byte) (p : List Byte)
  /-- WARM_RESTORE (R172), with the levels of the six strap pins at that moment (bit set: 921,600 baud). -/
  | warmRestore (straps : BitVec 6)
  /-- STORE_LOST (R173), with the levels of the six strap pins at that moment. -/
  | storeLost (straps : BitVec 6)
  /-- RESET_LINE (R171): the RESET line is pulled. -/
  | resetLine
  /-- POWER_LOSS (R171). -/
  | powerLoss
  /-- RETENTION_LOSS (R171). -/
  | retentionLoss
  /-- UNKNOWN_KIND (R154): a complete good frame with a kind the part does not take as a request. -/
  | unknownKind (l : LinkId) (corr : Byte) (kind : Byte) (p : List Byte)
deriving DecidableEq, Repr

end Sys2Proof
end

