-- ==== Sys2Proof/Decode.lean ====
section
/-! DEFINITION. The command a frame's body spells, by the kind table of R174, and the body of a request. The opcode table
gives no row any bits, so `decodeTableWord` spells none. -/

namespace Sys2Proof

/-- The command that a word spells by the opcode table's bits. No row of the table has bits, so every word spells none. -/
def decodeTableWord (_nbits _w : Nat) : Option Instr := none

/-- The kinds the part takes as requests (R174), each with its command. -/
def kindTable : List (Byte × (LinkId → Byte → List Byte → Instr)) :=
  [(0x01#8, Instr.auth), (0x02#8, Instr.refund), (0x03#8, Instr.reversal), (0x04#8, Instr.laneStatus),
   (0x0F#8, Instr.linkReset)] ++
  [(0x10#8, Instr.pullOne), (0x11#8, Instr.pullBlock), (0x12#8, Instr.streamOpen), (0x13#8, Instr.streamClose),
   (0x14#8, Instr.ackOne), (0x15#8, Instr.ackOldest), (0x16#8, Instr.ackThrough), (0x17#8, Instr.routeUp),
   (0x18#8, Instr.routeDown)] ++
  [(0x20#8, Instr.setClock), (0x21#8, Instr.setCutover), (0x22#8, Instr.closeBatch), (0x23#8, Instr.rollFamily),
   (0x24#8, Instr.setCeiling), (0x25#8, Instr.holdLane), (0x26#8, Instr.releaseLane), (0x27#8, Instr.statusRead),
   (0x28#8, Instr.faultRead), (0x29#8, Instr.routeQuery)] ++
  [(0x30#8, Instr.enrol), (0x31#8, Instr.holdTerminal), (0x32#8, Instr.releaseTerminal), (0x33#8, Instr.move),
   (0x34#8, Instr.retire), (0x35#8, Instr.setFloor), (0x36#8, Instr.terminalQuery), (0x37#8, Instr.familyQuery)] ++
  [(0x40#8, Instr.keyLoad), (0x41#8, Instr.retireFamily), (0x42#8, Instr.setupBegin), (0x43#8, Instr.routeDefine),
   (0x44#8, Instr.setupEnd), (0x45#8, Instr.erase)]

/-- The kinds the part takes as requests (R174). -/
def requestKinds : List Byte := kindTable.map (·.1)

/-- The request of a kind; none where the part does not take the kind (R154). -/
def commandOf (kind : Byte) : Option (LinkId → Byte → List Byte → Instr) :=
  (kindTable.find? fun e => e.1 == kind).map (·.2)

/-- The command that a complete good frame on a link spells, from its body: kind, correlation number, payload (R154). A
body below two bytes has no header (R151). -/
def decodeBody (l : LinkId) : List Byte → Option Instr
  | kind :: corr :: p =>
    match commandOf kind with
    | some c => some (c l corr p)
    | none => some (.unknownKind l corr kind p)
  | _ => none

/-- What a frame carries: its link and its body. -/
abbrev FrameBody := LinkId × List Byte

/-- The frame that carries a command; none for an event that no frame carries (R174). -/
def Instr.frame : Instr → Option FrameBody
  | .auth l c p => some (l, 0x01#8 :: c :: p)
  | .refund l c p => some (l, 0x02#8 :: c :: p)
  | .reversal l c p => some (l, 0x03#8 :: c :: p)
  | .laneStatus l c p => some (l, 0x04#8 :: c :: p)
  | .linkReset l c p => some (l, 0x0F#8 :: c :: p)
  | .pullOne l c p => some (l, 0x10#8 :: c :: p)
  | .pullBlock l c p => some (l, 0x11#8 :: c :: p)
  | .streamOpen l c p => some (l, 0x12#8 :: c :: p)
  | .streamClose l c p => some (l, 0x13#8 :: c :: p)
  | .ackOne l c p => some (l, 0x14#8 :: c :: p)
  | .ackOldest l c p => some (l, 0x15#8 :: c :: p)
  | .ackThrough l c p => some (l, 0x16#8 :: c :: p)
  | .routeUp l c p => some (l, 0x17#8 :: c :: p)
  | .routeDown l c p => some (l, 0x18#8 :: c :: p)
  | .setClock l c p => some (l, 0x20#8 :: c :: p)
  | .setCutover l c p => some (l, 0x21#8 :: c :: p)
  | .closeBatch l c p => some (l, 0x22#8 :: c :: p)
  | .rollFamily l c p => some (l, 0x23#8 :: c :: p)
  | .setCeiling l c p => some (l, 0x24#8 :: c :: p)
  | .holdLane l c p => some (l, 0x25#8 :: c :: p)
  | .releaseLane l c p => some (l, 0x26#8 :: c :: p)
  | .statusRead l c p => some (l, 0x27#8 :: c :: p)
  | .faultRead l c p => some (l, 0x28#8 :: c :: p)
  | .routeQuery l c p => some (l, 0x29#8 :: c :: p)
  | .enrol l c p => some (l, 0x30#8 :: c :: p)
  | .holdTerminal l c p => some (l, 0x31#8 :: c :: p)
  | .releaseTerminal l c p => some (l, 0x32#8 :: c :: p)
  | .move l c p => some (l, 0x33#8 :: c :: p)
  | .retire l c p => some (l, 0x34#8 :: c :: p)
  | .setFloor l c p => some (l, 0x35#8 :: c :: p)
  | .terminalQuery l c p => some (l, 0x36#8 :: c :: p)
  | .familyQuery l c p => some (l, 0x37#8 :: c :: p)
  | .keyLoad l c p => some (l, 0x40#8 :: c :: p)
  | .retireFamily l c p => some (l, 0x41#8 :: c :: p)
  | .setupBegin l c p => some (l, 0x42#8 :: c :: p)
  | .routeDefine l c p => some (l, 0x43#8 :: c :: p)
  | .setupEnd l c p => some (l, 0x44#8 :: c :: p)
  | .erase l c p => some (l, 0x45#8 :: c :: p)
  | .unknownKind l c k p => some (l, k :: c :: p)
  | _ => none

end Sys2Proof
end

