-- ==== Sys2Proof/Config.lean ====
section
/-! DEFINITION. What is fixed for the part: the limits the spec numbers, and the free values of the cipher core, whose
computation the spec does not give (00_scope.md, What this manual leaves out). -/

namespace Sys2Proof

/-- A family's secret root, held inside the part and never output (R22). The spec gives no length for it, so it is named
by a number. DESIGN CHOICE (log 7). -/
abbrev Root := Nat

/-- The part's transport key (R27): fixed when the part is made. A free value (DESIGN CHOICE, log 7). -/
opaque Config.transportKey : Nat

/-- The root that the cipher core unwraps from the 32 bytes of a KEY LOAD under the transport key (R27). Free (DESIGN CHOICE, log 7). -/
opaque Config.unwrapRoot : Nat → List Byte → Root

/-- The 3-byte check value the cipher core computes from a root, as a number (R27, R29). Free (DESIGN CHOICE, log 7). -/
opaque Config.rootCheck : Root → BitVec 24

/-- The one-way derivation of a family's next root (R27, R32). Free (DESIGN CHOICE, log 7). -/
opaque Config.rollRoot : Root → Root

/-- Byte number `i` of the enciphered card data, from the inputs of R26: the family's root, the terminal number, the
generation, epoch and counter, and the card data. Free (DESIGN CHOICE, log 7). -/
opaque Config.cipherByte :
    Option Root → Nat → Nat → Nat → Nat → List Byte → Nat → Byte

/-- Largest amount, in minor units (R43). -/
def Config.maxAmount : Nat := 999999999999

/-- Largest sum of the totals (R48, R51). -/
def Config.maxSum : Nat := 999999999999999

/-- Last data sequence of a batch (R88). -/
def Config.lastDataSeq : Nat := 65534

/-- Requests an intake queue holds (R59). -/
def Config.intakeLimit : Nat := 8

/-- History entries a terminal keeps (R13). -/
def Config.historyLimit : Nat := 8

/-- Entries the fault log holds (R169). -/
def Config.logLimit : Nat := 16

/-- Answers and places at which a link discards a complete frame (R156). -/
def Config.responseLimit : Nat := 32

/-- Slots of the record store (R96). -/
def Config.storeSlots : Nat := 2048

/-- Slots of the live rings, before the first store ring (R96). -/
def Config.liveSlots : Nat := 64

/-- Size of a live ring (R96). -/
def Config.liveSize : Nat := 16

/-- Seconds of a day (R137). -/
def Config.daySeconds : Nat := 86400

end Sys2Proof
end

