-- ==== Sys2Proof/Machine/State.lean ====
section
/-! DEFINITION. The part's state as plain data, block by block (00_scope.md, Block overview), and the state after
power-up with lost retention. -/

namespace Sys2Proof.Machine

/-! ### Names the spec enumerates -/

/-- Status codes (R178). -/
inductive Code where
  | done | wrapped | offlineAccepted | withdrawn | duplicate
  | frameBad | unknownKind | privilege | notRunning | terminalRange | wrongLane | cardLength | cardShort | cardLong | busy
  | terminalVacant | terminalHeld | terminalClosing | terminalBusy
  | notFound | notReversible | alreadyReversed | stale
  | amountFormat | amountZero | amountRange
  | routeUndefined | routeDown | offlineLimit | batchFull | liveFull | storeFull
  | keyExhausted | keyUnavailable | checkMismatch | generationSpent | epochSpent | familyBusy
  | windowFull | empty | notOffered
  | badParameter | sequenceBroken | layoutTooLarge | notEmpty | cutoverActive
deriving DecidableEq, Repr

/-- The eleven event flags (R167). -/
inductive EventFlag where
  | cutoverNear | cutoverDone | closeDeferred | keyLow | keyExhausted | storeHigh | ackTimeout | totalOverflow
  | faultLogged | restored | storeLost
deriving DecidableEq, Repr

/-- Codes of the fault log (R169). -/
inductive FaultCode where
  | rollRefused | rollLost | closeDeferred | ackTimeout
deriving DecidableEq, Repr

/-- What a lane asks for (R59). -/
inductive WrapKind where
  | auth | refund | reversal
deriving DecidableEq, Repr

/-- Kind of a data record (R176). -/
inductive RecordKind where
  | auth | refund | reversal | void
deriving DecidableEq, Repr

/-- Class of a record (00_scope.md, Terms). -/
inductive RecordClass where
  | live | store
deriving DecidableEq, Repr

/-- State of a record (R98). A close record is never ACKED. -/
inductive RecordState where
  | pending | offered | acked
deriving DecidableEq, Repr

/-- Disposition of a history entry (R13). -/
inductive Disposition where
  | pending | offered | acked | voided
deriving DecidableEq, Repr

/-- State of a terminal entry (R1). -/
inductive TerminalState where
  | vacant | active | held | closing
deriving DecidableEq, Repr

/-- State of a key family (R22). -/
inductive FamilyState where
  | empty | loading | active | low | exhausted | rolling | retired
deriving DecidableEq, Repr

/-- Work in progress on a family (R22). -/
inductive FamilyOp where
  | none | load | gatewayRoll | cutoverRoll
deriving DecidableEq, Repr

/-- A route's rounding mode (R42). -/
inductive Rounding where
  | halfUp | down
deriving DecidableEq, Repr

/-- Reason of a route close (R110). -/
inductive CloseReason where
  | scheduled | manual | batchFull | deferred
deriving DecidableEq, Repr

/-- What a pending close waits for (R98). -/
inductive CloseWait where
  | wrap | buffer
deriving DecidableEq, Repr

/-- Why a route is DOWN (R115). -/
inductive DownReason where
  | start | command | timeout | restore
deriving DecidableEq, Repr

/-- Dispatch state of a route, with the down reason while it is DOWN (R115). -/
inductive DispatchState where
  | up
  | down (why : DownReason)
deriving DecidableEq, Repr

/-- Cause of a BLOCK_END or a STREAM_END (R123, R124). -/
inductive EndCause where
  | count | empty | windowFull | routeDown | timeout
deriving DecidableEq, Repr

/-- Part state (R162). -/
inductive PartState where
  | blank | setup | running
deriving DecidableEq, Repr

/-- State from which a setup sequence was opened (R162). -/
inductive PriorState where
  | blank | running
deriving DecidableEq, Repr

/-- Stage of the Cut-over Unit (R142). -/
inductive CutoverStage where
  | idle | waiting | closing | rolling
deriving DecidableEq, Repr

/-- Head state reported by LANE STATUS (R62). -/
inductive HeadState where
  | noHead | eligible | laneHeld | familyBusy
deriving DecidableEq, Repr

/-- Supply of the part: on, on with the RESET line held, or off (R171). -/
inductive Supply where
  | on | held | off
deriving DecidableEq, Repr

/-! ### Records -/

/-- A record's identity (00_scope.md, Conventions). -/
structure Identity where
  route : RouteNo
  batch : Nat
  seq   : Nat
deriving DecidableEq, Repr

/-- A key reference (R24). -/
structure KeyRef where
  family     : FamilyNo
  generation : Nat
  epoch      : Nat
  counter    : Nat
deriving DecidableEq, Repr

/-- A reference section: the original's identity and till sequence (R88). -/
structure Reference where
  id   : Identity
  till : Nat
deriving DecidableEq, Repr

/-- A card section: enciphered card data and pad count (R26). -/
structure CardSection where
  data : List Byte
  pad  : Nat
deriving DecidableEq, Repr

/-- A wrapped record in a slot of the record store (R88). -/
structure Record where
  kind     : RecordKind
  cls      : RecordClass
  state    : RecordState
  id       : Identity
  terminal : TerminalNo
  till     : Nat
  stamp    : ClockTime
  key      : KeyRef
  offline  : Bool
  offers   : Nat
  fraction : Nat
  amount   : Nat
  card     : Option CardSection
  ref      : Option Reference
deriving DecidableEq, Repr

/-- The eight totals that a terminal and a route both keep (R18, R48). -/
structure Totals where
  sale          : Nat
  refund        : Nat
  reversal      : Nat
  saleCount     : Nat
  refundCount   : Nat
  reversalCount : Nat
  voidCount     : Nat
  offlineCount  : Nat
deriving DecidableEq, Repr

/-- All eight totals zero. -/
def Totals.zero : Totals := ⟨0, 0, 0, 0, 0, 0, 0, 0⟩

/-- A close record (R110). Its state is PENDING or OFFERED. -/
structure CloseRecord where
  id        : Identity
  reason    : CloseReason
  opened    : ClockTime
  closed    : ClockTime
  totals    : Totals
  offline   : Nat
  overflow  : Bool
  subtotals : List (TerminalNo × Totals)
  state     : RecordState
  offers    : Nat
deriving DecidableEq, Repr

/-! ### Terminal Table -/

/-- A history entry (R13). -/
structure HistoryEntry where
  till        : Nat
  kind        : WrapKind
  amount      : Nat
  id          : Identity
  cls         : RecordClass
  disposition : Disposition
  reversed    : Bool
  offline     : Bool
deriving DecidableEq, Repr

/-- A terminal entry (R1). -/
structure Terminal where
  state    : TerminalState
  lane     : LaneNo
  route    : RouteNo
  family   : FamilyNo
  fraction : Nat
  floor    : Nat
  history  : List HistoryEntry
  totals   : Totals
deriving DecidableEq, Repr

/-- A VACANT entry with the empty value of every other field (R1). -/
def Terminal.vacant : Terminal := ⟨.vacant, 0, 0, 0, 0, 0, [], Totals.zero⟩

/-! ### Key Family Unit -/

/-- The fields of a family record that its prior contents copy (R22). -/
structure FamilyRecord where
  state         : FamilyState
  generation    : Nat
  epoch         : Nat
  counter       : Nat
  ceiling       : Nat
  low           : Nat
  rollAtCutover : Bool
  root          : Option Root
deriving DecidableEq, Repr

/-- The empty values of R22. -/
def FamilyRecord.empty : FamilyRecord := ⟨.empty, 0, 0, 0, 1, 0, false, none⟩

/-- A key family: its record as it stands, the operation in progress, the prior contents (R22). -/
structure Family where
  now   : FamilyRecord
  op    : FamilyOp
  prior : Option FamilyRecord
deriving DecidableEq, Repr

/-- A family with every field empty (R22). -/
def Family.empty : Family := ⟨FamilyRecord.empty, .none, none⟩

/-- What KEY LOAD carried, while the cipher core works on it (R28, R29). -/
structure LoadWork where
  wrapped       : List Byte
  check         : BitVec 24
  ceiling       : Nat
  low           : Nat
  rollAtCutover : Bool
deriving DecidableEq, Repr

/-- The Key Family Unit: eight families, and the cipher core's loads in hand. -/
structure KeyUnit where
  families : Vector Family 8
  loads    : Vector (Option LoadWork) 8
deriving DecidableEq, Repr

/-- Every family empty and no load in hand (R38). -/
def KeyUnit.empty : KeyUnit := ⟨Vector.replicate 8 Family.empty, Vector.replicate 8 none⟩

/-! ### Amount and Totals Unit -/

/-- A route's batch totals, overflow mark and ceilings (R46, R48). -/
structure RouteAccount where
  totals   : Totals
  offline  : Nat
  overflow : Bool
  active   : Nat
  pending  : Nat
deriving DecidableEq, Repr

/-- Totals, mark and ceilings at their empty values (R57). -/
def RouteAccount.empty : RouteAccount := ⟨Totals.zero, 0, false, 0, 0⟩

/-! ### Queue Manager -/

/-- The three positions of a ring (R99). -/
structure Ring where
  top    : Nat
  offer  : Nat
  bottom : Nat
deriving DecidableEq, Repr

/-- An empty ring at position 0. -/
def Ring.empty : Ring := ⟨0, 0, 0⟩

/-- A close that waits (R98, R111). -/
structure ClosePending where
  reason   : CloseReason
  wait     : CloseWait
  deferred : Bool
deriving DecidableEq, Repr

/-- A route's queue state (R98). The close buffer is `none` when FREE. -/
structure RouteQueue where
  batch    : Nat
  nextSeq  : Nat
  opened   : ClockTime
  live     : Ring
  store    : Ring
  overflow : List Nat
  buffer   : Option CloseRecord
  pending  : Option ClosePending
  full     : Bool
deriving DecidableEq, Repr

/-- The values of R98 for a route defined afresh at a given time. -/
def RouteQueue.fresh (opened : ClockTime) : RouteQueue :=
  ⟨1, 1, opened, Ring.empty, Ring.empty, [], none, none, false⟩

/-- The Queue Manager: the slots that hold a record, the pool's free list, the four routes' queue state (R96 to R98). -/
structure QueueManager where
  slots    : List (Nat × Record)
  poolFree : List Nat
  queues   : Vector RouteQueue 4
deriving DecidableEq, Repr

/-- The record store empty, no pool, every batch 1 (R114). -/
def QueueManager.empty : QueueManager := ⟨[], [], Vector.replicate 4 (RouteQueue.fresh ⟨0, 0⟩)⟩

/-! ### Wrap Engine -/

/-- What a lane asked for, beyond the fields every request has (R59). -/
inductive WrapItem where
  /-- An AUTH with its amount field: the digit count and the twelve nibbles. -/
  | auth (count : Nat) (nibbles : List Nat)
  /-- A REFUND with its amount field. -/
  | refund (count : Nat) (nibbles : List Nat)
  /-- A REVERSAL with the till sequence of its original. -/
  | reversal (original : Nat)
deriving DecidableEq, Repr

/-- A queued request (R59). Its class is urgent for a REVERSAL and normal otherwise. -/
structure Request where
  lane     : LaneNo
  corr     : Byte
  item     : WrapItem
  terminal : TerminalNo
  till     : Nat
  card     : List Byte
deriving DecidableEq, Repr

/-- The slot a wrap has reserved (R75): a live ring position, a store ring position or a pool slot. -/
inductive ReservedSlot where
  | live (pos : Nat)
  | store (pos : Nat)
  | pool (slot : Nat)
deriving DecidableEq, Repr

/-- The retained fields of a reservation record (R75, R85). -/
structure ReservationKept where
  route : RouteNo
  batch : Nat
  slot  : ReservedSlot
  key   : KeyRef
deriving DecidableEq, Repr

/-- The working fields of a reservation record, which are not retained (R75). -/
structure ReservationWork where
  lane      : LaneNo
  corr      : Byte
  kind      : WrapKind
  terminal  : TerminalNo
  till      : Nat
  cls       : RecordClass
  offline   : Bool
  amount    : Nat
  fraction  : Nat
  stamp     : ClockTime
  ref       : Option Reference
  card      : List Byte
  discarded : Bool
deriving DecidableEq, Repr

/-- The Wrap Engine: IDLE, BUSY with its reservation record, or (while the part is without supply, until its restore)
left with the retained fields alone (R75, R94, R171). -/
inductive Engine where
  | idle
  | busy (kept : ReservationKept) (work : ReservationWork)
  | cut (kept : ReservationKept)
deriving DecidableEq, Repr

/-! ### Intake Arbiter -/

/-- One lane's intake queue, oldest first, and its hold (R59, R69). -/
structure Lane where
  queue : List Request
  held  : Bool
deriving DecidableEq, Repr

/-- The Intake Arbiter (R59, R66, R69). -/
structure Intake where
  lanes    : Vector Lane 4
  rotation : LaneNo
deriving DecidableEq, Repr

/-- The Intake Arbiter after a part reset (R73, R74). -/
def Intake.start : Intake := ⟨Vector.replicate 4 ⟨[], false⟩, 0⟩

/-! ### Dispatch Controller -/

/-- The acknowledgement timer (R131). A count of 0 stands between the TICK that reaches it and the expiry (DESIGN CHOICE, log 3). -/
inductive AckTimer where
  | stopped
  | running (remaining : Nat)
deriving DecidableEq, Repr

/-- An open stream (R115). -/
structure OpenStream where
  base    : Nat
  current : Nat
  renew   : Bool
  link    : LinkId
  corr    : Byte
deriving DecidableEq, Repr

/-- A route's dispatch state (R115). The stream is `none` when CLOSED. -/
structure RouteDispatch where
  state   : DispatchState
  e       : Nat
  offered : List Identity
  tag     : Nat
  timer   : AckTimer
  stream  : Option OpenStream
deriving DecidableEq, Repr

/-- The dispatch state of a route that is not defined (R136). DEDUCED (log 20). -/
def RouteDispatch.absent : RouteDispatch := ⟨.down .start, 1, [], 0, .stopped, none⟩

/-! ### Cut-over Unit -/

/-- The hour of the cut-over setting (R139). -/
inductive CutoverHour where
  | any
  | hour (h : Nat)
deriving DecidableEq, Repr

/-- The cut-over setting (R139). -/
structure CutoverSetting where
  hour    : CutoverHour
  minute  : Nat
  enabled : Bool
deriving DecidableEq, Repr

/-- The Cut-over Unit (R137, R139, R142). `nextRoute` and `nextFamily` are `none` for done. `nearDue` and `matchDue` are
the model's own: what the last tick has brought about and its row has not yet carried out (DESIGN CHOICE, log 3). -/
structure CutoverUnit where
  clock      : ClockTime
  unset      : Bool
  setting    : CutoverSetting
  stage      : CutoverStage
  matchTime  : Option ClockTime
  nextRoute  : Option RouteNo
  nextFamily : Option FamilyNo
  near       : Bool
  nearDue    : Bool
  matchDue   : Option ClockTime
deriving DecidableEq, Repr

/-- The Cut-over Unit after ERASE or lost retention (R137, R139, R142, R148). -/
def CutoverUnit.initial : CutoverUnit :=
  ⟨⟨0, 0⟩, true, ⟨.hour 0, 0, false⟩, .idle, none, none, none, false, false, none⟩

/-! ### Status and Setup Unit -/

/-- A route's configuration: the fields of ROUTE DEFINE and its allow flag (R162, R164). -/
structure RouteConfig where
  k         : Nat
  fraction  : Nat
  rounding  : Rounding
  plus      : Nat
  minus     : Nat
  init      : Nat
  window    : Nat
  tagStart  : Nat
  tagEnd    : Nat
  timeout   : Nat
  highWater : Nat
  ceiling   : Nat
  allow     : Bool
deriving DecidableEq, Repr

/-- The staged configuration: the route count, the allow flags, the ROUTE DEFINEs taken so far in route order (R162). The
setup position is their number. -/
structure Staged where
  count  : Nat
  allow  : List Bool
  routes : List RouteConfig
deriving DecidableEq, Repr

/-- An entry of the fault log; `unit` is a route or a family number (R169). -/
structure FaultEntry where
  code : FaultCode
  time : ClockTime
  unit : Nat
deriving DecidableEq, Repr

/-- The Status and Setup Unit (R162, R167, R169). Bit 0 to 10 of the flags and the enables are the events of R178. -/
structure StatusUnit where
  part    : PartState
  prior   : Option PriorState
  staged  : Option Staged
  config  : Vector (Option RouteConfig) 4
  flags   : BitVec 11
  enables : BitVec 11
  log     : List FaultEntry
  overrun : Bool
deriving DecidableEq, Repr

/-- The Status and Setup Unit BLANK, no route defined, flags clear, every enable set, fault log empty (R173). -/
def StatusUnit.blank : StatusUnit :=
  ⟨.blank, none, none, Vector.replicate 4 none, 0#11, 0x7FF#11, [], false⟩

/-! ### Messages -/

/-- The two advisory bits of a wrap answer (R90). -/
structure Advisory where
  near : Bool
  down : Bool
deriving DecidableEq, Repr

/-- The image an offered frame carries (R176, R177). -/
inductive Image where
  | data (r : Record)
  | close (c : CloseRecord)
deriving DecidableEq, Repr

/-- What FAMILY QUERY reports (R36): of the root only whether one is present, nothing of the prior contents and of the check
value. -/
structure FamilyReport where
  state         : FamilyState
  generation    : Nat
  epoch         : Nat
  counter       : Nat
  ceiling       : Nat
  low           : Nat
  rollAtCutover : Bool
  op            : FamilyOp
  rootPresent   : Bool
  remaining     : Nat
  inFlight      : Bool
  terminals     : Nat
deriving DecidableEq, Repr

/-- What LANE STATUS reports (R62). -/
structure LaneReport where
  part     : PartState
  held     : Bool
  queued   : Nat
  head     : HeadState
  cutover  : Bool
  inFlight : Bool
  near     : Bool
deriving DecidableEq, Repr

/-- The Queue Manager's values for ROUTE QUERY (R100). -/
structure QueueReport where
  batch     : Nat
  nextSeq   : Nat
  opened    : ClockTime
  liveUsed  : Nat
  storeUsed : Nat
  liveRoom  : Nat
  ringRoom  : Nat
  storeRoom : Nat
  overflow  : Nat
  poolFree  : Nat
  buffer    : Option RecordState
  pending   : Option (CloseReason × CloseWait)
  full      : Bool
  nPending  : Nat
  nOffered  : Nat
  nAcked    : Nat
deriving DecidableEq, Repr

/-- The dispatch state ROUTE QUERY reports: of the offered list its length and its first entry (R115, R170). -/
structure DispatchReport where
  state   : DispatchState
  e       : Nat
  tag     : Nat
  timer   : AckTimer
  stream  : Option OpenStream
  offered : Nat
  first   : Option Identity
deriving DecidableEq, Repr

/-- What ROUTE QUERY reports (R170). -/
structure RouteReport where
  config   : RouteConfig
  queue    : QueueReport
  account  : RouteAccount
  dispatch : DispatchReport
  ringLow  : Bool
  clock    : ClockTime
  unset    : Bool
deriving DecidableEq, Repr

/-- A defined route's block of the status reply (R168). -/
structure RouteStatus where
  state     : DispatchState
  batch     : Nat
  nextSeq   : Nat
  nPending  : Nat
  nOffered  : Nat
  nAcked    : Nat
  storeRoom : Nat
  ringLow   : Bool
  buffer    : Option RecordState
  reason    : Option CloseReason
  full      : Bool
  overflow  : Bool
deriving DecidableEq, Repr

/-- What STATUS READ reports (R168). -/
structure StatusReport where
  flags      : BitVec 11
  enables    : BitVec 11
  part       : PartState
  prior      : Option PriorState
  position   : Option Nat
  clock      : ClockTime
  unset      : Bool
  setting    : CutoverSetting
  stage      : CutoverStage
  matchTime  : Option ClockTime
  nextRoute  : Option RouteNo
  nextFamily : Option FamilyNo
  near       : Bool
  logged     : Nat
  overrun    : Bool
  lane       : Option LaneNo
  routes     : List (Option RouteStatus)
deriving DecidableEq, Repr

/-- What follows the status code of an ANSWER. -/
inductive Reply where
  /-- Nothing. -/
  | bare
  /-- WRAPPED, OFFLINE_ACCEPTED and WITHDRAWN (R175). -/
  | wrap (adv : Advisory) (id : Identity)
  /-- DUPLICATE (R175). -/
  | duplicate (id : Identity) (disposition : Disposition) (reversed : Bool)
  /-- LANE STATUS (R62). -/
  | lane (r : LaneReport)
  /-- HOLD LANE and RELEASE LANE (R69). -/
  | hold (held : Bool) (queued : Nat)
  /-- RETIRE (R10). -/
  | terminalState (st : TerminalState)
  /-- TERMINAL QUERY (R12). -/
  | terminal (e : Terminal) (inFlight : Bool)
  /-- KEY LOAD (R29): family, new generation, new state. -/
  | loaded (f : FamilyNo) (generation : Nat) (st : FamilyState)
  /-- ROLL FAMILY (R32): family, new epoch, new state. -/
  | rolled (f : FamilyNo) (epoch : Nat) (st : FamilyState)
  /-- FAMILY QUERY (R36). -/
  | family (r : FamilyReport)
  /-- ACK ONE and ACK THROUGH (R127, R129). -/
  | acked (n : Nat)
  /-- ACK OLDEST (R128). -/
  | ackedOldest (n : Nat) (id : Identity)
  /-- CLOSE BATCH, PERFORMED (R146). -/
  | closed (id : Identity)
  /-- CLOSE BATCH, PENDING; the reason when a close was already pending (R146). -/
  | closeWaits (reason : Option CloseReason) (wait : CloseWait)
  /-- ROUTE DEFINE: the high-water room staged (R164). -/
  | staged (highWater : Nat)
  /-- FAULT READ with an entry (R169). -/
  | fault (entry : FaultEntry) (left : Nat) (overrun : Bool)
  /-- FAULT READ, EMPTY (R169). -/
  | noFault (overrun : Bool)
  /-- STATUS READ (R168). -/
  | status (r : StatusReport)
  /-- ROUTE QUERY (R170). -/
  | route (r : RouteReport)
deriving DecidableEq, Repr

/-- The four kinds of message the part sends (R174). -/
inductive Message where
  | answer (corr : Byte) (code : Code) (reply : Reply)
  | offered (corr : Byte) (route : RouteNo) (tag : Nat) (image : Image)
  | blockEnd (corr : Byte) (route : RouteNo) (count : Nat) (cause : EndCause)
  | streamEnd (corr : Byte) (route : RouteNo) (cause : EndCause)
deriving DecidableEq, Repr

/-! ### Link Interface Unit -/

/-- An entry of a response queue (R156): one message or the run of a PULL BLOCK, or the empty place of a load or roll. A
family has at most one load or roll in progress, so the family names the place. -/
inductive QueueEntry where
  | run (first : Message) (more : List Message)
  | place (f : FamilyNo) (corr : Byte)
deriving DecidableEq, Repr

/-- A link's receiver (R151). RECEIVING holds the bytes taken so far, escaping removed (length, body, CRC in order; the
length is the first two), and whether the last byte was the escape byte. -/
inductive Receiver where
  | hunting
  | receiving (taken : List Byte) (escaped : Bool)
  | inBreak
deriving DecidableEq, Repr

/-- A message on the wire, with the bytes of its frame (R151). -/
structure Sending where
  message : Message
  line    : List Byte
deriving DecidableEq, Repr

/-- One link (R126, R150, R151, R156, R158). -/
structure Link where
  receiver : Receiver
  /-- The receive line is at its break level. -/
  low      : Bool
  /-- The strap selected 921,600 baud. -/
  fast     : Bool
  queue    : List QueueEntry
  sending  : Option Sending
  pointer  : RouteNo
deriving DecidableEq, Repr

/-- A link after a part reset, with its line idle and the lower rate (R161). -/
def Link.start : Link := ⟨.hunting, false, false, [], none, 3⟩

/-! ### The machine -/

/-- The part: the commands waiting, the supply, and the ten blocks. -/
structure State where
  /-- Commands waiting, first in, first out. -/
  pending   : List Instr
  supply    : Supply
  /-- The validity mark of retained memory (R171). -/
  valid     : Bool
  /-- Status and Setup Unit. -/
  status    : StatusUnit
  /-- Link Interface Unit: lane 0 to lane 3, dispatch link, service port. -/
  links     : Vector Link 6
  /-- Intake Arbiter. -/
  intake    : Intake
  /-- Wrap Engine. -/
  engine    : Engine
  /-- Terminal Table. -/
  terminals : Vector Terminal 64
  /-- Key Family Unit. -/
  keys      : KeyUnit
  /-- Amount and Totals Unit. -/
  accounts  : Vector RouteAccount 4
  /-- Queue Manager. -/
  qm        : QueueManager
  /-- Dispatch Controller. -/
  dispatch  : Vector RouteDispatch 4
  /-- Cut-over Unit. -/
  cutover   : CutoverUnit
deriving DecidableEq, Repr

/-- The machine never stops with a fault: the spec gives every event an outcome. Raised by nobody; safe. DEDUCED
(log 27). -/
inductive Fault where
deriving DecidableEq, Repr

/-- Reasons a command has no meaning. -/
inductive Refusal where
  /-- The model gives the row no meaning yet. Raised by no arm of exec now; safe. -/
  | notModelled (mnemonic : String)
deriving DecidableEq, Repr

/-- The part right after power-up with lost retention (R173): every retained item empty, every enable set, STORE_LOST
raised, the links started (R161), the lines idle and the lower line rate (DESIGN CHOICE, log 6), no command waiting. -/
def State.reset : State where
  pending   := []
  supply    := .on
  valid     := true
  status    := { StatusUnit.blank with flags := 0x400#11 }
  links     := Vector.replicate 6 Link.start
  intake    := Intake.start
  engine    := .idle
  terminals := Vector.replicate 64 Terminal.vacant
  keys      := KeyUnit.empty
  accounts  := Vector.replicate 4 RouteAccount.empty
  qm        := QueueManager.empty
  dispatch  := Vector.replicate 4 RouteDispatch.absent
  cutover   := CutoverUnit.initial

end Sys2Proof.Machine
end

