-- ==== Sys2Proof/Machine/Framing.lean ====
section
/-! DEFINITION. Frames on a line: escaping, the CRC, the frame the part sends, and the receiver (R151, R152). -/

namespace Sys2Proof.Machine

/-- The start marker (R151). -/
def startMarker : Byte := 126#8

/-- The escape byte (R151). -/
def escapeByte : Byte := 125#8

/-- A number as `k` bytes, most significant first (R174). -/
def bigEndian : Nat → Nat → List Byte
  | 0, _ => []
  | k + 1, v => BitVec.ofNat 8 (v / 256 ^ k) :: bigEndian k v

/-- Bytes read as a number, most significant first (R174). -/
def numberOf (bs : List Byte) : Nat := bs.foldl (fun n b => 256 * n + b.toNat) 0

/-- One bit into the CRC register: generator x^16 + x^12 + x^5 + 1 (R152). -/
def crcBit (reg : BitVec 16) (bit : Bool) : BitVec 16 :=
  if reg.msb != bit then (reg <<< 1) ^^^ 0x1021#16 else reg <<< 1

/-- One byte into the CRC register, most significant bit first (R152). -/
def crcByte (reg : BitVec 16) (b : Byte) : BitVec 16 :=
  [7, 6, 5, 4, 3, 2, 1, 0].foldl (fun r i => crcBit r (b.getLsbD i)) reg

/-- The CRC over bytes in the order sent; the register starts at 65,535 (R152). -/
def crc (bs : List Byte) : BitVec 16 := bs.foldl crcByte 0xFFFF#16

/-- The CRC's two bytes, most significant first (R152). -/
def crcBytes (bs : List Byte) : List Byte := bigEndian 2 (crc bs).toNat

/-- One byte as it is sent between the start marker and the end of a frame (R151). -/
def escapeOne (b : Byte) : List Byte :=
  if b = startMarker ∨ b = escapeByte then [escapeByte, b ^^^ 32#8] else [b]

/-- Bytes as they are sent (R151). -/
def escapeAll (bs : List Byte) : List Byte := bs.flatMap escapeOne

/-- Length and body of a frame, before escaping (R151). -/
def framePlain (body : List Byte) : List Byte := bigEndian 2 body.length ++ body

/-- Length, body and CRC of a frame, before escaping (R151, R152). -/
def frameBytes (body : List Byte) : List Byte := framePlain body ++ crcBytes (framePlain body)

/-- The line bytes of the frame with a body (R151). -/
def frameOf (body : List Byte) : List Byte := startMarker :: escapeAll (frameBytes body)

/-- What a character makes known about the frame being received. -/
inductive Heard where
  /-- Nothing yet. -/
  | nothing
  /-- A bad frame, answered FRAME_BAD. -/
  | bad
  /-- A complete frame with a good CRC, and its body. -/
  | complete (body : List Byte)
deriving DecidableEq, Repr

/-- A byte taken into the frame, escaping removed. The length is checked once both its bytes are in, the CRC once its
second byte is in (R151, R152). -/
def takeByte (largest : Nat) (taken : List Byte) (b : Byte) : Receiver × Heard :=
  let now := taken ++ [b]
  let len := numberOf (now.take 2)
  if now.length < 2 then (.receiving now false, .nothing)
  else if len < 2 ∨ largest < len then (.hunting, .bad)
  else if now.length < len + 4 then (.receiving now false, .nothing)
  else if crcBytes (now.take (len + 2)) = now.drop (len + 2) then
    (.hunting, .complete ((now.drop 2).take len))
  else (.hunting, .bad)

/-- A character at the receiver of a link whose largest body is `largest` (R151). A start marker that follows an escape
byte rules over the escape: DEDUCED (log 11). A character whose stop bit is missing is no byte, whatever its value, so one
of value 126 is no start marker, neither in RECEIVING nor in HUNTING: DESIGN CHOICE (log 32). -/
def Receiver.hear (largest : Nat) : Receiver → LineChar → Receiver × Heard
  | .inBreak, _ => (.inBreak, .nothing)
  | .hunting, .byte b => if b = startMarker then (.receiving [] false, .nothing) else (.hunting, .nothing)
  | .hunting, .noStop => (.hunting, .nothing)
  | .receiving _ _, .noStop => (.hunting, .bad)
  | .receiving taken escaped, .byte b =>
    if b = startMarker then (.receiving [] false, .bad)
    else if escaped then
      if b = 94#8 then takeByte largest taken startMarker
      else if b = 93#8 then takeByte largest taken escapeByte
      else (.hunting, .bad)
    else if b = escapeByte then (.receiving taken true, .nothing)
    else takeByte largest taken b

/-- A receiver in RECEIVING holds the beginning of the frame with a body: the bytes it has taken are the frame's first, and
after an escape byte the next is one that is sent escaped. A complete frame that arrives at such a receiver is the one in
progress, come to its end; at another, its start marker ends the frame in progress (R151). DEDUCED (log 12). -/
def Receiver.begins (rx : Receiver) (body : List Byte) : Bool :=
  match rx with
  | .receiving taken escaped =>
    match (frameBytes body).drop taken.length with
    | next :: _ => taken.isPrefixOf (frameBytes body) && (!escaped || next == startMarker || next == escapeByte)
    | [] => false
  | _ => false

/-- Characters at a receiver, one after another, up to the first that makes something known. -/
def Receiver.hearAll (largest : Nat) : Receiver → List LineChar → Receiver × Heard
  | r, [] => (r, .nothing)
  | r, c :: cs =>
    match r.hear largest c with
    | (r', .nothing) => r'.hearAll largest cs
    | (r', h) => (r', h)

end Sys2Proof.Machine
end

