-- ==== Sys2Proof/Machine/Operands.lean ====
section
/-! DEFINITION. The operands of requests, read from the bytes of a payload (R154, R174, R175). A parser answers `none` for
a payload whose length is not the one its kind has; ranges are checked by the command's own rule. -/

namespace Sys2Proof.Machine

/-- A byte that names an item numbered below `n`. -/
def indexOf (n : Nat) (b : Byte) : Option (Fin n) := if h : b.toNat < n then some ⟨b.toNat, h⟩ else none

/-- A yes-or-no byte: 0 or 1 (R174). -/
def flagOf (b : Byte) : Option Bool := if b = 0#8 then some false else if b = 1#8 then some true else none

/-- A byte in a range. -/
def byteIn (lo hi : Nat) (b : Byte) : Option Nat := if lo ≤ b.toNat ∧ b.toNat ≤ hi then some b.toNat else none

/-- The two nibbles of each byte, the high one first (R40, R174). -/
def nibblesOf (bs : List Byte) : List Nat := bs.flatMap fun b => [b.toNat / 16, b.toNat % 16]

/-- Decimal digits read most significant first (R40). -/
def decimal (ds : List Nat) : Nat := ds.foldl (fun n d => 10 * n + d) 0

/-- A packed field, when each of its digits is 0 to 9 (R3, R46, R164). -/
def packedOf (bs : List Byte) : Option Nat :=
  if (nibblesOf bs).all (· ≤ 9) then some (decimal (nibblesOf bs)) else none

/-- No payload. -/
def parseNone : List Byte → Option Unit
  | [] => some ()
  | _ => none

/-- A payload of any length, not read (R174). -/
def parseAny : List Byte → Option Unit := fun _ => some ()

/-- One byte: a route, lane, family or terminal. -/
def parseByte : List Byte → Option Byte
  | [b] => some b
  | _ => none

/-- PULL BLOCK: route, count. -/
def parseTwo : List Byte → Option (Byte × Byte)
  | [a, b] => some (a, b)
  | _ => none

/-- STREAM OPEN: route, count, renew. SET CUTOVER: hour, minute, enable. -/
def parseThree : List Byte → Option (Byte × Byte × Byte)
  | [a, b, c] => some (a, b, c)
  | _ => none

/-- ACK ONE and ACK THROUGH: route, batch, sequence. -/
def parseAck : List Byte → Option (Byte × Nat × Nat)
  | [r, b1, b0, s1, s0] => some (r, numberOf [b1, b0], numberOf [s1, s0])
  | _ => none

/-- SET CLOCK: day, second of day. -/
def parseClock : List Byte → Option ClockTime
  | [d1, d0, s2, s1, s0] => some ⟨numberOf [d1, d0], numberOf [s2, s1, s0]⟩
  | _ => none

/-- SET CEILING and SET FLOOR: a number and six packed bytes. -/
def parsePacked : List Byte → Option (Byte × List Byte)
  | [n, a, b, c, d, e, f] => some (n, [a, b, c, d, e, f])
  | _ => none

/-- The fields ENROL and MOVE share, as bytes. -/
structure PlaceBytes where
  terminal : Byte
  lane     : Byte
  route    : Byte
  family   : Byte
  fraction : Byte
deriving DecidableEq, Repr

/-- ENROL. -/
def parseEnrol : List Byte → Option (PlaceBytes × List Byte)
  | [t, l, r, f, d, a, b, c, e, g, h] => some (⟨t, l, r, f, d⟩, [a, b, c, e, g, h])
  | _ => none

/-- MOVE. -/
def parseMove : List Byte → Option PlaceBytes
  | [t, l, r, f, d] => some ⟨t, l, r, f, d⟩
  | _ => none

/-- A terminal's place: home lane, route, family, till fraction digits. -/
structure Place where
  lane     : LaneNo
  route    : RouteNo
  family   : FamilyNo
  fraction : Nat
deriving DecidableEq, Repr

/-- The ranges of R3 check 3: lane 0 to 3, route 0 to 3, family 0 to 7, fraction digits 0 to 3. -/
def PlaceBytes.place (b : PlaceBytes) : Option Place :=
  match indexOf 4 b.lane, indexOf 4 b.route, indexOf 8 b.family, byteIn 0 3 b.fraction with
  | some l, some r, some f, some d => some ⟨l, r, f, d⟩
  | _, _, _, _ => none

/-- KEY LOAD's fields as they are carried (R28). -/
structure LoadBytes where
  family  : Byte
  ceiling : Nat
  low     : Nat
  roll    : Byte
  wrapped : List Byte
  check   : BitVec 24
deriving DecidableEq, Repr

/-- KEY LOAD: 43 bytes (R174). -/
def parseLoad (p : List Byte) : Option LoadBytes :=
  if p.length = 43 then
    match p with
    | f :: c2 :: c1 :: c0 :: l2 :: l1 :: l0 :: roll :: rest =>
      some ⟨f, numberOf [c2, c1, c0], numberOf [l2, l1, l0], roll, rest.take 32, BitVec.ofNat 24 (numberOf (rest.drop 32))⟩
    | _ => none
  else none

/-- The ranges of R28 check 2. -/
def LoadBytes.load (b : LoadBytes) : Option (FamilyNo × LoadWork) :=
  match indexOf 8 b.family, flagOf b.roll with
  | some f, some roll =>
    if 1 ≤ b.ceiling ∧ b.ceiling ≤ 1048575 ∧ b.low ≤ b.ceiling then
      some (f, ⟨b.wrapped, b.check, b.ceiling, b.low, roll⟩)
    else none
  | _, _ => none

/-- STATUS READ: nothing, or an enable list laid out as the flag word, whose bits 11 to 15 are not read (R174, R178). -/
def parseEnables : List Byte → Option (Option (BitVec 11))
  | [] => some none
  | [hi, lo] => some (some (BitVec.ofNat 11 (numberOf [hi, lo])))
  | _ => none

/-- ROUTE DEFINE: the route, and the fields as bytes (R174). -/
structure DefineBytes where
  route     : Byte
  k         : Byte
  fraction  : Byte
  rounding  : Byte
  plus      : Byte
  minus     : Byte
  init      : Byte
  window    : Byte
  tagStart  : Byte
  tagEnd    : Byte
  timeout   : Byte
  highWater : Nat
  ceiling   : List Byte
deriving DecidableEq, Repr

/-- ROUTE DEFINE: 19 bytes (R174). -/
def parseDefine : List Byte → Option DefineBytes
  | [r, k, fr, ro, pl, mi, i, w, ts, te, tmo, h1, h0, a, b, c, d, e, f] =>
    some ⟨r, k, fr, ro, pl, mi, i, w, ts, te, tmo, numberOf [h1, h0], [a, b, c, d, e, f]⟩
  | _ => none

/-- A rounding mode byte (R174). -/
def roundingOf (b : Byte) : Option Rounding :=
  if b = 0#8 then some .halfUp else if b = 1#8 then some .down else none

/-- The ranges of R164; the high-water room is clamped to the store ring's size. The allow flag is the route's of
SETUP BEGIN. -/
def DefineBytes.config (b : DefineBytes) (allow : Bool) : Option RouteConfig :=
  match byteIn 4 10 b.k, byteIn 0 3 b.fraction, roundingOf b.rounding, byteIn 1 255 b.plus, packedOf b.ceiling with
  | some k, some fr, some ro, some plus, some ceiling =>
    match byteIn 1 plus b.minus, byteIn 1 plus b.init, byteIn 1 32 b.window, byteIn 0 7 b.tagStart, byteIn 0 7 b.tagEnd with
    | some minus, some init, some w, some ts, some te =>
      if ts ≤ te ∧ b.highWater ≤ 1024 then
        some ⟨k, fr, ro, plus, minus, init, w, ts, te, b.timeout.toNat, min b.highWater (2 ^ k), ceiling, allow⟩
      else none
    | _, _, _, _, _ => none
  | _, _, _, _, _ => none

/-- A wrap request's fixed part and card bytes (R175): terminal, till sequence, the seven bytes at body offsets 5 to 11,
declared card length, card data. -/
structure WrapBytes where
  terminal : Byte
  till     : Nat
  middle   : List Byte
  declared : Nat
  card     : List Byte
deriving DecidableEq, Repr

/-- A wrap request's payload; a body that ends before its fixed part does gives none (R61, R175). -/
def parseWrap : List Byte → Option WrapBytes
  | t :: s1 :: s0 :: a :: b :: c :: d :: e :: f :: g :: n :: card =>
    some ⟨t, numberOf [s1, s0], [a, b, c, d, e, f, g], n.toNat, card⟩
  | _ => none

/-- What the seven middle bytes hold for each kind (R175). -/
def WrapBytes.item (b : WrapBytes) : WrapKind → WrapItem
  | .auth => .auth (numberOf (b.middle.take 1)) (nibblesOf (b.middle.drop 1))
  | .refund => .refund (numberOf (b.middle.take 1)) (nibblesOf (b.middle.drop 1))
  | .reversal => .reversal (numberOf (b.middle.take 2))

end Sys2Proof.Machine
end

