-- ==== Sys2Proof/Machine/Flags.lean ====
section
/-! DEFINITION. Event flags, enables, the alert line and the fault log (R167, R169). -/

namespace Sys2Proof.Machine

/-- Bit of an event in the flag word and the enable word (R178). -/
def EventFlag.bit : EventFlag → Nat
  | .cutoverNear => 0
  | .cutoverDone => 1
  | .closeDeferred => 2
  | .keyLow => 3
  | .keyExhausted => 4
  | .storeHigh => 5
  | .ackTimeout => 6
  | .totalOverflow => 7
  | .faultLogged => 8
  | .restored => 9
  | .storeLost => 10

/-- A flag as a word with its one bit set. -/
def EventFlag.mask (f : EventFlag) : BitVec 11 := BitVec.twoPow 11 f.bit

/-- Whether a word of flags or enables holds an event. -/
def holdsFlag (w : BitVec 11) (f : EventFlag) : Bool := w.getLsbD f.bit

/-- Raising a flag sets it; raising a set flag leaves it set (R167). -/
def StatusUnit.raise (u : StatusUnit) (f : EventFlag) : StatusUnit :=
  { u with flags := u.flags ||| f.mask }

/-- Raising a flag when a condition holds. -/
def StatusUnit.raiseIf (u : StatusUnit) (c : Bool) (f : EventFlag) : StatusUnit :=
  { u with flags := if c then u.flags ||| f.mask else u.flags }

/-- The fault log with an entry added at the end; a full log first loses its oldest entry (R169). -/
def logWith (log : List FaultEntry) (entry : FaultEntry) : List FaultEntry :=
  (if Config.logLimit ≤ log.length then log.drop 1 else log) ++ [entry]

/-- A write to the fault log: the entry joins, a full log sets the overrun mark, FAULT_LOGGED is raised (R169). -/
def StatusUnit.logFault (u : StatusUnit) (entry : FaultEntry) : StatusUnit :=
  { u with
    log := logWith u.log entry
    overrun := u.overrun || decide (Config.logLimit ≤ u.log.length)
    flags := u.flags ||| EventFlag.faultLogged.mask }

/-- The alert line: at least one flag is both set and enabled (R167). -/
def State.alertLine (s : State) : Bool := (s.status.flags &&& s.status.enables) != 0#11

/-- The clock's running time (R137). -/
def State.time (s : State) : ClockTime := s.cutover.clock

/-- Event raised (R167). -/
def State.raise (s : State) (f : EventFlag) : State := { s with status := s.status.raise f }

/-- Event raised when a condition holds. -/
def State.raiseIf (s : State) (c : Bool) (f : EventFlag) : State := { s with status := s.status.raiseIf c f }

/-- Fault log entry written with the clock's time and a route or family number (R169). -/
def State.logFault (s : State) (code : FaultCode) (unit : Nat) : State :=
  { s with status := s.status.logFault ⟨code, s.time, unit⟩ }

end Sys2Proof.Machine
end

