-- ==== Sys2Proof/Machine/Formats.lean ====
section
/-! DEFINITION. The bytes of the messages the part sends (11_message_and_record_formats.md). -/

namespace Sys2Proof.Machine

/-- Value of a status code (R178). -/
def Code.value : Code → Byte
  | .done => 0x00#8 | .wrapped => 0x01#8 | .offlineAccepted => 0x02#8 | .withdrawn => 0x03#8 | .duplicate => 0x04#8
  | .frameBad => 0x10#8 | .unknownKind => 0x11#8 | .privilege => 0x12#8 | .notRunning => 0x13#8
  | .terminalRange => 0x14#8 | .wrongLane => 0x15#8 | .cardLength => 0x16#8 | .cardShort => 0x17#8
  | .cardLong => 0x18#8 | .busy => 0x19#8
  | .terminalVacant => 0x20#8 | .terminalHeld => 0x21#8 | .terminalClosing => 0x22#8 | .terminalBusy => 0x23#8
  | .notFound => 0x28#8 | .notReversible => 0x29#8 | .alreadyReversed => 0x2A#8 | .stale => 0x2B#8
  | .amountFormat => 0x30#8 | .amountZero => 0x31#8 | .amountRange => 0x32#8
  | .routeUndefined => 0x38#8 | .routeDown => 0x39#8 | .offlineLimit => 0x3A#8 | .batchFull => 0x3B#8
  | .liveFull => 0x3C#8 | .storeFull => 0x3D#8
  | .keyExhausted => 0x40#8 | .keyUnavailable => 0x41#8 | .checkMismatch => 0x42#8 | .generationSpent => 0x43#8
  | .epochSpent => 0x44#8 | .familyBusy => 0x45#8
  | .windowFull => 0x48#8 | .empty => 0x49#8 | .notOffered => 0x4A#8
  | .badParameter => 0x50#8 | .sequenceBroken => 0x51#8 | .layoutTooLarge => 0x52#8 | .notEmpty => 0x53#8
  | .cutoverActive => 0x54#8

def RecordKind.value : RecordKind → Byte
  | .auth => 1#8 | .refund => 2#8 | .reversal => 3#8 | .void => 4#8

def WrapKind.value : WrapKind → Byte
  | .auth => 1#8 | .refund => 2#8 | .reversal => 3#8

def RecordClass.value : RecordClass → Byte
  | .live => 1#8 | .store => 2#8

def RecordState.value : RecordState → Byte
  | .pending => 1#8 | .offered => 2#8 | .acked => 3#8

/-- Close buffer: FREE 0, else the close record's state (R174). -/
def bufferValue : Option RecordState → Byte
  | none => 0#8
  | some st => st.value

def Disposition.value : Disposition → Byte
  | .pending => 1#8 | .offered => 2#8 | .acked => 3#8 | .voided => 4#8

def CloseReason.value : CloseReason → Byte
  | .scheduled => 1#8 | .manual => 2#8 | .batchFull => 3#8 | .deferred => 4#8

def CloseWait.value : CloseWait → Byte
  | .wrap => 1#8 | .buffer => 2#8

def PartState.value : PartState → Byte
  | .blank => 0#8 | .setup => 1#8 | .running => 2#8

def PriorState.value : PriorState → Byte
  | .blank => 0#8 | .running => 2#8

def DispatchState.value : DispatchState → Byte
  | .down _ => 0#8 | .up => 1#8

def DispatchState.reasonValue : DispatchState → Byte
  | .up => 0#8 | .down .start => 1#8 | .down .command => 2#8 | .down .timeout => 3#8 | .down .restore => 4#8

def CutoverStage.value : CutoverStage → Byte
  | .idle => 0#8 | .waiting => 1#8 | .closing => 2#8 | .rolling => 3#8

def EndCause.value : EndCause → Byte
  | .count => 1#8 | .empty => 2#8 | .windowFull => 3#8 | .routeDown => 4#8 | .timeout => 5#8

def TerminalState.value : TerminalState → Byte
  | .vacant => 0#8 | .active => 1#8 | .held => 2#8 | .closing => 3#8

def FamilyState.value : FamilyState → Byte
  | .empty => 0#8 | .loading => 1#8 | .active => 2#8 | .low => 3#8 | .exhausted => 4#8 | .rolling => 5#8 | .retired => 6#8

def FamilyOp.value : FamilyOp → Byte
  | .none => 0#8 | .load => 1#8 | .gatewayRoll => 2#8 | .cutoverRoll => 3#8

def FaultCode.value : FaultCode → Byte
  | .rollRefused => 1#8 | .rollLost => 2#8 | .closeDeferred => 3#8 | .ackTimeout => 4#8

def HeadState.value : HeadState → Byte
  | .noHead => 0#8 | .eligible => 1#8 | .laneHeld => 2#8 | .familyBusy => 3#8

def Rounding.value : Rounding → Byte
  | .halfUp => 0#8 | .down => 1#8

def CutoverHour.value : CutoverHour → Byte
  | .any => 0xFF#8 | .hour h => BitVec.ofNat 8 h

/-- Link numbers in a reply: lane 0 to lane 3, dispatch link 4, service port 5. DESIGN CHOICE (log 15). -/
def linkValue : LinkId → Byte
  | .lane i => BitVec.ofNat 8 i.val | .dispatch => 4#8 | .service => 5#8

/-- One byte. -/
def one (n : Nat) : List Byte := bigEndian 1 n

/-- A mark, flag or yes-or-no item (R174). -/
def mark (b : Bool) : List Byte := [if b then 1#8 else 0#8]

/-- An index, or FFh when absent or done (R174). -/
def indexOrAbsent {n : Nat} : Option (Fin n) → List Byte
  | none => [0xFF#8]
  | some i => one i.val

/-- A packed field of `k` bytes: decimal digits two to a byte, the first in the high nibble (R174). -/
def packed : Nat → Nat → List Byte
  | 0, _ => []
  | k + 1, v => BitVec.ofNat 8 (v / 100 ^ k % 100 / 10 * 16 + v / 100 ^ k % 10) :: packed k v

/-- Day in two bytes, second in three (R176). -/
def timeBytes (t : ClockTime) : List Byte := bigEndian 2 t.day ++ bigEndian 3 t.sec

/-- Route, batch, sequence (R175). -/
def identityBytes (id : Identity) : List Byte := one id.route.val ++ bigEndian 2 id.batch ++ bigEndian 2 id.seq

/-- Sale, refund and reversal sums, 16 packed digits each (R174). -/
def sumBytes (t : Totals) : List Byte := packed 8 t.sale ++ packed 8 t.refund ++ packed 8 t.reversal

/-- The five counts, two bytes each. -/
def countBytes (t : Totals) : List Byte :=
  bigEndian 2 t.saleCount ++ bigEndian 2 t.refundCount ++ bigEndian 2 t.reversalCount ++ bigEndian 2 t.voidCount ++
    bigEndian 2 t.offlineCount

/-- Card section: enciphered length, pad count, data (R176). -/
def cardBytes : Option CardSection → List Byte
  | none => []
  | some c => one c.data.length ++ one c.pad ++ c.data

/-- Reference section (R176). -/
def referenceBytes : Option Reference → List Byte
  | none => []
  | some r => identityBytes r.id ++ bigEndian 2 r.till

/-- A data record's image (R176). -/
def recordImage (r : Record) : List Byte :=
  [r.kind.value, r.cls.value, r.state.value] ++ bigEndian 2 r.id.batch ++ bigEndian 2 r.id.seq ++ one r.terminal.val ++
    bigEndian 2 r.till ++ timeBytes r.stamp ++ one r.key.family.val ++ bigEndian 2 r.key.generation ++
    bigEndian 2 r.key.epoch ++ bigEndian 3 r.key.counter ++ mark r.offline ++ one r.offers ++ one r.fraction ++
    packed 6 r.amount ++ one ((if r.card.isSome then 1 else 0) + (if r.ref.isSome then 2 else 0)) ++ cardBytes r.card ++
    referenceBytes r.ref

/-- A subtotal entry (R177). -/
def subtotalBytes (e : TerminalNo × Totals) : List Byte := one e.1.val ++ sumBytes e.2 ++ countBytes e.2

/-- A close record's image (R177). -/
def closeImage (c : CloseRecord) : List Byte :=
  [5#8, c.state.value] ++ bigEndian 2 c.id.batch ++ bigEndian 2 c.id.seq ++ [c.reason.value] ++ timeBytes c.opened ++
    timeBytes c.closed ++ mark c.overflow ++ one c.offers ++ sumBytes c.totals ++ packed 8 c.offline ++
    countBytes c.totals ++ one c.subtotals.length ++ c.subtotals.flatMap subtotalBytes

/-- The image of an offered frame (R176, R177). -/
def Image.bytes : Image → List Byte
  | .data r => recordImage r
  | .close c => closeImage c

/-- The advisory byte: bit 0 CUTOVER_NEAR, bit 1 ROUTE_DOWN (R175). -/
def Advisory.byte (a : Advisory) : List Byte := one ((if a.near then 1 else 0) + (if a.down then 2 else 0))

/-- A history entry in a TERMINAL QUERY reply: its fields in the order of R13, in the widths of 11.1. -/
def historyBytes (h : HistoryEntry) : List Byte :=
  bigEndian 2 h.till ++ [h.kind.value] ++ packed 6 h.amount ++ identityBytes h.id ++ [h.cls.value, h.disposition.value] ++
    mark h.reversed ++ mark h.offline

/-- A terminal entry in a TERMINAL QUERY reply: its fields in the order of R1. -/
def terminalBytes (e : Terminal) : List Byte :=
  [e.state.value] ++ one e.lane.val ++ one e.route.val ++ one e.family.val ++ one e.fraction ++ packed 6 e.floor ++
    one e.history.length ++ e.history.flatMap historyBytes ++ sumBytes e.totals ++ countBytes e.totals

/-- FAMILY QUERY's items in the order of R36. -/
def familyBytes (r : FamilyReport) : List Byte :=
  [r.state.value] ++ bigEndian 2 r.generation ++ bigEndian 2 r.epoch ++ bigEndian 3 r.counter ++
    bigEndian 3 r.ceiling ++ bigEndian 3 r.low ++ mark r.rollAtCutover ++ [r.op.value] ++ mark r.rootPresent ++
    bigEndian 3 r.remaining ++ mark r.inFlight ++ one r.terminals

/-- LANE STATUS's items in the order of R62. -/
def laneBytes (r : LaneReport) : List Byte :=
  [r.part.value] ++ mark r.held ++ one r.queued ++ [r.head.value] ++ mark r.cutover ++ mark r.inFlight ++ mark r.near

/-- A pending close's reason and wait, 0 for none (R174). -/
def pendingBytes : Option (CloseReason × CloseWait) → List Byte
  | none => [0#8, 0#8]
  | some p => [p.1.value, p.2.value]

/-- The configured fields of R164 and the allow flag (R170). -/
def configBytes (c : RouteConfig) : List Byte :=
  one c.k ++ one c.fraction ++ [c.rounding.value] ++ one c.plus ++ one c.minus ++ one c.init ++ one c.window ++
    one c.tagStart ++ one c.tagEnd ++ one c.timeout ++ bigEndian 2 c.highWater ++ packed 6 c.ceiling ++ mark c.allow

/-- The Queue Manager's values in the order of R100; the occupancies of both rings, live first (DESIGN CHOICE, log 15). The
number of OFFERED records cannot exceed W, so it takes 1 byte (R121, R174). -/
def queueBytes (q : QueueReport) : List Byte :=
  bigEndian 2 q.batch ++ bigEndian 2 q.nextSeq ++ timeBytes q.opened ++ one q.liveUsed ++ bigEndian 2 q.storeUsed ++
    one q.liveRoom ++ bigEndian 2 q.ringRoom ++ bigEndian 2 q.storeRoom ++ bigEndian 2 q.overflow ++
    bigEndian 2 q.poolFree ++ [bufferValue q.buffer] ++ pendingBytes q.pending ++ mark q.full ++ bigEndian 2 q.nPending ++
    one q.nOffered ++ bigEndian 2 q.nAcked

/-- Totals, offline sum, overflow mark, active and pending ceiling, in the order of R55. -/
def accountBytes (a : RouteAccount) : List Byte :=
  sumBytes a.totals ++ countBytes a.totals ++ packed 8 a.offline ++ mark a.overflow ++ packed 6 a.active ++
    packed 6 a.pending

/-- The timer in a reply: RUNNING or not, and the remaining count (DESIGN CHOICE, log 15). -/
def AckTimer.bytes : AckTimer → List Byte
  | .stopped => [0#8, 0#8]
  | .running n => [1#8] ++ one n

/-- The stream in a reply: OPEN or not, base and current count, renew flag, link, correlation number (DESIGN CHOICE, log 15). -/
def streamBytes : Option OpenStream → List Byte
  | none => [0#8, 0#8, 0#8, 0#8, 0xFF#8, 0#8]
  | some st => [1#8] ++ one st.base ++ one st.current ++ mark st.renew ++ [linkValue st.link, st.corr]

/-- The first entry of an offered list in a reply, FFh and zeros when there is none (DESIGN CHOICE, log 15). -/
def firstOffered : Option Identity → List Byte
  | none => [0xFF#8, 0#8, 0#8, 0#8, 0#8]
  | some id => identityBytes id

/-- The dispatch state in the order of R115, then the offered list's length and first entry (R170). -/
def dispatchBytes (d : DispatchReport) : List Byte :=
  [d.state.value, d.state.reasonValue] ++ one d.e ++ bigEndian 2 d.tag ++ d.timer.bytes ++ streamBytes d.stream ++
    one d.offered ++ firstOffered d.first

/-- ROUTE QUERY's items in the order of R170. -/
def routeBytes (r : RouteReport) : List Byte :=
  configBytes r.config ++ queueBytes r.queue ++ accountBytes r.account ++ dispatchBytes r.dispatch ++ mark r.ringLow ++
    timeBytes r.clock ++ mark r.unset

/-- A flag or enable word as two bytes; bits 11 to 15 are sent as 0 (R178). -/
def wordBytes (w : BitVec 11) : List Byte := bigEndian 2 w.toNat

/-- A route's 20 bytes of the status reply; an undefined route's block holds 0 after its defined byte (R178). -/
def routeStatusBytes : Option RouteStatus → List Byte
  | none => List.replicate 20 0#8
  | some r =>
    [1#8, r.state.value, r.state.reasonValue] ++ bigEndian 2 r.batch ++ bigEndian 2 r.nextSeq ++ bigEndian 2 r.nPending ++
      bigEndian 2 r.nOffered ++ bigEndian 2 r.nAcked ++ bigEndian 2 r.storeRoom ++ mark r.ringLow ++
      [bufferValue r.buffer, (r.reason.map CloseReason.value).getD 0#8] ++ mark r.full ++ mark r.overflow

/-- The status reply after its code (R178). An absent prior state is sent as FFh (DESIGN CHOICE, log 15). -/
def statusBytes (r : StatusReport) : List Byte :=
  wordBytes r.flags ++ wordBytes r.enables ++ [r.part.value, (r.prior.map PriorState.value).getD 0xFF#8] ++
    [(r.position.map (BitVec.ofNat 8)).getD 0xFF#8] ++ timeBytes r.clock ++ mark r.unset ++
    [r.setting.hour.value] ++ one r.setting.minute ++ mark r.setting.enabled ++ [r.stage.value] ++
    timeBytes (r.matchTime.getD ⟨0, 0⟩) ++ indexOrAbsent r.nextRoute ++ indexOrAbsent r.nextFamily ++ mark r.near ++
    one r.logged ++ mark r.overrun ++ indexOrAbsent r.lane ++ r.routes.flatMap routeStatusBytes

/-- The bytes after the status code of an ANSWER. DESIGN CHOICE (log 15). -/
def Reply.bytes : Reply → List Byte
  | .bare => []
  | .wrap adv id => adv.byte ++ identityBytes id
  | .duplicate id d rev => [0#8] ++ identityBytes id ++ [d.value] ++ mark rev
  | .lane r => laneBytes r
  | .hold held n => mark held ++ one n
  | .terminalState st => [st.value]
  | .terminal e fl => terminalBytes e ++ mark fl
  | .loaded f g st => one f.val ++ bigEndian 2 g ++ [st.value]
  | .rolled f e st => one f.val ++ bigEndian 2 e ++ [st.value]
  | .family r => familyBytes r
  | .acked n => one n
  | .ackedOldest n id => one n ++ identityBytes id
  | .closed id => [1#8] ++ identityBytes id
  | .closeWaits none w => [2#8, w.value]
  | .closeWaits (some why) w => [2#8, why.value, w.value]
  | .staged h => bigEndian 2 h
  | .fault e left ov => [e.code.value] ++ timeBytes e.time ++ one e.unit ++ one left ++ mark ov
  | .noFault ov => mark ov
  | .status r => statusBytes r
  | .route r => routeBytes r

/-- A message's body: kind, correlation number, payload (R174). -/
def Message.body : Message → List Byte
  | .answer corr code reply => [0x80#8, corr, code.value] ++ reply.bytes
  | .offered corr r tag img => [0x81#8, corr] ++ one r.val ++ one tag ++ img.bytes
  | .blockEnd corr r n cause => [0x82#8, corr] ++ one r.val ++ one n ++ [cause.value]
  | .streamEnd corr r cause => [0x83#8, corr] ++ one r.val ++ [cause.value]

/-- The message on the wire: its frame's bytes (R151). -/
def Message.send (m : Message) : Sending := ⟨m, frameOf m.body⟩

end Sys2Proof.Machine
end

