-- ==== Sys2Proof/Machine/Ops.lean ====
section
/-! DEFINITION. Named operations over the blocks of the part that every family of commands shares: the blocks' entries,
answers and response queues, the arrival of a frame, the terminal entries' release test and disposition reports. -/

namespace Sys2Proof.Machine

/-! ### Entries of the blocks -/

/-- Place of a link in the table of links. -/
def linkIndex : LinkId → Fin 6
  | .lane i => ⟨i.val, by omega⟩
  | .dispatch => 4
  | .service => 5

/-- The ring of a link (R150). -/
def linkRing : LinkId → Nat
  | .lane _ => 2
  | .dispatch => 1
  | .service => 0

/-- The largest body a link receives (R150). -/
def largestBody : LinkId → Nat
  | .lane _ => 256
  | .dispatch => 4096
  | .service => 256

def State.link (s : State) (l : LinkId) : Link := Vec.get s.links (linkIndex l)
def State.lane (s : State) (i : LaneNo) : Lane := Vec.get s.intake.lanes i
def State.term (s : State) (t : TerminalNo) : Terminal := Vec.get s.terminals t
def State.family (s : State) (f : FamilyNo) : Family := Vec.get s.keys.families f
def State.account (s : State) (r : RouteNo) : RouteAccount := Vec.get s.accounts r
def State.queue (s : State) (r : RouteNo) : RouteQueue := Vec.get s.qm.queues r
def State.route (s : State) (r : RouteNo) : RouteDispatch := Vec.get s.dispatch r
def State.config (s : State) (r : RouteNo) : Option RouteConfig := Vec.get s.status.config r

def State.setLink (s : State) (l : LinkId) (k : Link) : State := { s with links := Vec.put s.links (linkIndex l) k }
def State.setLane (s : State) (i : LaneNo) (k : Lane) : State :=
  { s with intake := { s.intake with lanes := Vec.put s.intake.lanes i k } }
def State.setTerm (s : State) (t : TerminalNo) (e : Terminal) : State := { s with terminals := Vec.put s.terminals t e }
def State.setFamily (s : State) (f : FamilyNo) (k : Family) : State :=
  { s with keys := { s.keys with families := Vec.put s.keys.families f k } }
def State.setLoad (s : State) (f : FamilyNo) (w : Option LoadWork) : State :=
  { s with keys := { s.keys with loads := Vec.put s.keys.loads f w } }
def State.setAccount (s : State) (r : RouteNo) (a : RouteAccount) : State := { s with accounts := Vec.put s.accounts r a }
def State.setQueue (s : State) (r : RouteNo) (q : RouteQueue) : State :=
  { s with qm := { s.qm with queues := Vec.put s.qm.queues r q } }
def State.setRoute (s : State) (r : RouteNo) (d : RouteDispatch) : State := { s with dispatch := Vec.put s.dispatch r d }

/-- The part runs its business: supply on and the RESET line not held (R171). -/
def State.awake (s : State) : Bool := s.supply == .on

/-- A route is defined in the configuration in force (R162). -/
def State.defined (s : State) (r : RouteNo) : Bool := (s.config r).isSome

/-! ### The wrap in flight -/

/-- A wrap is in flight for a terminal (R75). -/
def Engine.servesTerminal : Engine → TerminalNo → Bool
  | .busy _ w, t => w.terminal == t
  | _, _ => false

/-- A wrap is in flight for a terminal on a family (R75). -/
def Engine.servesFamily : Engine → FamilyNo → Bool
  | .busy k _, f => k.key.family == f
  | _, _ => false

/-- A wrap is in flight for a route (R109). -/
def Engine.servesRoute : Engine → RouteNo → Bool
  | .busy k _, r => k.route == r
  | _, _ => false

/-- A wrap from a lane is in flight (R75). -/
def Engine.servesLane : Engine → LaneNo → Bool
  | .busy _ w, i => w.lane == i
  | _, _ => false

/-- The lane of the wrap in flight (R168). -/
def Engine.lane : Engine → Option LaneNo
  | .busy _ w => some w.lane
  | _ => none

/-- The engine holds no reservation (R75). -/
def Engine.isIdle : Engine → Bool
  | .idle => true
  | _ => false

/-! ### Answers (R156) -/

/-- An entry at the end of a link's response queue. -/
def Link.push (k : Link) (e : QueueEntry) : Link := { k with queue := k.queue ++ [e] }

/-- An entry joins a link's response queue. -/
def State.enqueue (s : State) (l : LinkId) (e : QueueEntry) : State :=
  { s with links := Vec.put s.links (linkIndex l) ((s.link l).push e) }

/-- A message joins a link's response queue. -/
def State.send (s : State) (l : LinkId) (m : Message) : State := s.enqueue l (.run m [])

/-- An answer to a request joins its link's response queue (R154, R156). -/
def State.answer (s : State) (l : LinkId) (corr : Byte) (code : Code) (reply : Reply := .bare) : State :=
  s.send l (.answer corr code reply)

/-- The FRAME_BAD answer, whose correlation number is 0 (R153). -/
def frameBadAnswer : Message := .answer 0#8 .frameBad .bare

/-- A link's response queue is full: a complete frame is discarded (R156). DEDUCED (log 10). -/
def Link.full (k : Link) : Bool := decide (Config.responseLimit ≤ k.queue.length)

/-- A bad frame's answer, which a full response queue discards (R153, R156; DEDUCED, log 10). -/
def Link.reportBad (k : Link) : Link := if k.full then k else k.push (.run frameBadAnswer [])

/-- The answers of several messages to one link, in order. -/
def Link.pushAll (k : Link) (ms : List Message) : Link :=
  { k with queue := k.queue ++ ms.map (fun m => .run m []) }

/-- A queue with the empty place of a family's load or roll filled (R156). -/
def fillPlace (f : FamilyNo) (code : Code) (reply : Reply) : List QueueEntry → List QueueEntry
  | [] => []
  | .place g corr :: rest =>
    if g = f then .run (.answer corr code reply) [] :: rest else .place g corr :: fillPlace f code reply rest
  | e :: rest => e :: fillPlace f code reply rest

/-- The answer of a load or roll fills its place where it stands; where a reset has emptied the place, it is discarded
(R39, R156, R160). -/
def State.fill (s : State) (f : FamilyNo) (code : Code) (reply : Reply) : State :=
  { s with links := Vec.gen fun i =>
      let k := Vec.get s.links i
      { k with queue := fillPlace f code reply k.queue } }

/-! ### The arrival of a frame (R151, R153, R156) -/

/-- What becomes of a frame that reaches a link: it is gone, or the part goes on to its checks. -/
inductive Arrival where
  | gone (s : State)
  | taken (s : State)

/-- A link whose receiver is free for the next frame. -/
def State.freeReceiver (s : State) (l : LinkId) : State := s.setLink l { s.link l with receiver := .hunting }

/-- The state once a frame in progress has been ended by the start marker of the next: FRAME_BAD joins the response queue
unless it is full, and the receiver is free for the new frame (R151, R153, R156). -/
def State.cutFrame (s : State) (l : LinkId) : State :=
  s.setLink l { (s.link l).reportBad with receiver := .hunting }

/-- A frame comes to its end on a link: a full response queue discards it before its first check (R156); a body above the
link's largest is FRAME_BAD (R151). -/
def frameEnds (l : LinkId) (bodyLength : Nat) (s : State) : Arrival :=
  if (s.link l).full then .gone s
  else if largestBody l < bodyLength then .gone (s.send l frameBadAnswer)
  else .taken s

/-- A complete frame with a good CRC reaches a link. No frame is taken without supply or with RESET held (R171), nor while
the line is in break (R158). A receiver that holds the frame's beginning takes its end; otherwise the frame's start marker
ends the frame in progress, which is answered FRAME_BAD (R151). DEDUCED (log 12). -/
def frameArrives (l : LinkId) (body : List Byte) (s : State) : Arrival :=
  if s.awake then
    match (s.link l).receiver with
    | .inBreak => .gone s
    | .hunting => frameEnds l body.length s
    | .receiving _ _ =>
      frameEnds l body.length (if (s.link l).receiver.begins body then s.freeReceiver l else s.cutFrame l)
  else .gone s

/-- A request other than a wrap request, with its kind: the frame arrives, its kind may be issued from the link's ring (R155), its payload
has the length its kind has (`parse`, R154 check 3, R174), and the command's own rule follows. A payload of another length
is refused BAD_PARAMETER, and `spoil` says what else that does. -/
def request {α : Type} (kind : Byte) (ring : Nat) (parse : List Byte → Option α) (spoil : State → State)
    (l : LinkId) (corr : Byte) (p : List Byte) (act : α → State → State) (s : State) : State :=
  match frameArrives l (kind :: corr :: p) s with
  | .gone s' => s'
  | .taken s' =>
    if ring < linkRing l then s'.answer l corr .privilege
    else
      match parse p with
      | none => (spoil s').answer l corr .badParameter
      | some a => act a s'

/-! ### Terminal entries -/

/-- A history entry whose record is still PENDING or OFFERED (R11). -/
def HistoryEntry.outstanding (h : HistoryEntry) : Bool := h.disposition == .pending || h.disposition == .offered

/-- The release test of R11 on entry `t`: CLOSING, all eight totals zero, nothing PENDING or OFFERED, no wrap in flight. -/
def releasable (engine : Engine) (t : TerminalNo) (e : Terminal) : Bool :=
  e.state == .closing && e.totals == Totals.zero && !e.history.any HistoryEntry.outstanding && !engine.servesTerminal t

/-- The entry after the release test (R11). -/
def release (engine : Engine) (t : TerminalNo) (e : Terminal) : Terminal :=
  if releasable engine t e then Terminal.vacant else e

/-- The release test applied to one entry (R11). -/
def State.releaseTest (s : State) (t : TerminalNo) : State :=
  { s with terminals := Vec.put s.terminals t (release s.engine t (s.term t)) }

/-- The release test applied to every entry (R20). -/
def State.releaseAll (s : State) : State :=
  { s with terminals := Vec.gen fun t => release s.engine t (Vec.get s.terminals t) }

/-- A change of a data record's state that is reported to the Terminal Table (R17). -/
inductive RecordEvent where
  | offered | rewound | acked
deriving DecidableEq, Repr

/-- Disposition that a record event changes (R17). -/
def RecordEvent.before : RecordEvent → Disposition
  | .offered => .pending
  | .rewound => .offered
  | .acked => .offered

/-- Disposition that a record event leads to (R17). -/
def RecordEvent.after : RecordEvent → Disposition
  | .offered => .offered
  | .rewound => .pending
  | .acked => .acked

/-- A report reaches a history entry: the identity matches and the disposition is the one the event changes, so never
VOIDED (R17). -/
def HistoryEntry.hears (h : HistoryEntry) (id : Identity) (ev : RecordEvent) : Bool :=
  h.id == id && h.disposition == ev.before

/-- A history list after a report (R17). -/
def reportHistory (id : Identity) (ev : RecordEvent) (hs : List HistoryEntry) : List HistoryEntry :=
  hs.map fun h => if h.hears id ev then { h with disposition := ev.after } else h

/-- A report to the Terminal Table: the matching entry follows the record, and the release test is applied after a change;
where no entry matches nothing changes (R17). -/
def reportTo (engine : Engine) (ts : Vector Terminal 64) (t : TerminalNo) (id : Identity) (ev : RecordEvent) :
    Vector Terminal 64 :=
  let e := Vec.get ts t
  if e.history.any (fun h => h.hears id ev) then
    Vec.put ts t (release engine t { e with history := reportHistory id ev e.history })
  else ts

/-- A change of a data record's state is reported with its terminal number and identity (R17). -/
def State.report (s : State) (t : TerminalNo) (id : Identity) (ev : RecordEvent) : State :=
  { s with terminals := reportTo s.engine s.terminals t id ev }

end Sys2Proof.Machine
end

