-- ==== Sys2Proof/Machine/Amounts.lean ====
section
/-! DEFINITION. Amount arithmetic and totals (03_amount_arithmetic_and_totals.md). -/

namespace Sys2Proof.Machine

/-! ### Normalisation -/

/-- Normalisation of `v` from the till fraction digits to the settlement fraction digits (R42). -/
def normalise (v tillDigits routeDigits : Nat) (mode : Rounding) : Nat :=
  if routeDigits < tillDigits then
    let unit := 10 ^ (tillDigits - routeDigits)
    let q := v / unit
    let r := v % unit
    match mode with
    | .halfUp => if unit ≤ 2 * r then q + 1 else q
    | .down => q
  else v * 10 ^ (routeDigits - tillDigits)

/-- The value of an amount field: its last `count` nibbles (R40, R41). -/
def amountValue (count : Nat) (nibbles : List Nat) : Option Nat :=
  let ds := nibbles.drop (12 - count)
  if 1 ≤ count ∧ count ≤ 12 ∧ ds.all (· ≤ 9) then some (decimal ds) else none

/-- The two limits on a normalised amount (R43). -/
def checkedAmount (a : Nat) : Except Code Nat :=
  if a = 0 then .error .amountZero else if Config.maxAmount < a then .error .amountRange else .ok a

/-- Check 4 of the grant (R41 to R43, R79). -/
def amountCheck (count : Nat) (nibbles : List Nat) (tillDigits : Nat) (c : RouteConfig) : Except Code Nat :=
  match amountValue count nibbles with
  | none => .error .amountFormat
  | some v => checkedAmount (normalise v tillDigits c.fraction c.rounding)

/-! ### Totals -/

/-- An addition to a sum, held at its limit (R51). -/
def addSum (sum a : Nat) : Nat := min (sum + a) Config.maxSum

/-- An addition saturates a sum (R51). -/
def saturates (sum a : Nat) : Bool := decide (Config.maxSum < sum + a)

/-- What completed, for the totals (R49). -/
inductive Completed where
  | sale | offlineSale | refund | reversal | withdrawal
deriving DecidableEq, Repr

/-- The eight totals with a completion added (R49). -/
def Totals.add (t : Totals) (what : Completed) (a : Nat) : Totals :=
  match what with
  | .sale => { t with sale := addSum t.sale a, saleCount := t.saleCount + 1 }
  | .offlineSale =>
    { t with sale := addSum t.sale a, saleCount := t.saleCount + 1, offlineCount := t.offlineCount + 1 }
  | .refund => { t with refund := addSum t.refund a, refundCount := t.refundCount + 1 }
  | .reversal => { t with reversal := addSum t.reversal a, reversalCount := t.reversalCount + 1 }
  | .withdrawal =>
    { t with reversal := addSum t.reversal a, reversalCount := t.reversalCount + 1, voidCount := t.voidCount + 1 }

/-- A completion saturates a sum of these totals (R51). -/
def Totals.saturated (t : Totals) (what : Completed) (a : Nat) : Bool :=
  match what with
  | .sale | .offlineSale => saturates t.sale a
  | .refund => saturates t.refund a
  | .reversal | .withdrawal => saturates t.reversal a

/-- What is added to the route's offline sum (R49). -/
def Completed.offlineAmount : Completed → Nat → Nat
  | .offlineSale, a => a
  | _, _ => 0

/-- A route's account with a completion added; `sat` says that a sum of the route or of the terminal saturated (R49,
R51). -/
def RouteAccount.add (acc : RouteAccount) (what : Completed) (a : Nat) (sat : Bool) : RouteAccount :=
  { acc with
    totals := acc.totals.add what a
    offline := acc.offline + what.offlineAmount a
    overflow := acc.overflow || sat }

/-- One completion's additions to the route's and the terminal's totals, made together; the first saturation of a batch
raises TOTAL_OVERFLOW (R49, R51, R52). -/
def State.addTotals (s : State) (r : RouteNo) (t : TerminalNo) (what : Completed) (a : Nat) : State :=
  let acc := s.account r
  let e := s.term t
  let sat := acc.totals.saturated what a || e.totals.saturated what a
  { s with
    accounts := Vec.put s.accounts r (acc.add what a sat)
    terminals := Vec.put s.terminals t { e with totals := e.totals.add what a }
    status := s.status.raiseIf (sat && !acc.overflow) .totalOverflow }

/-- A route's account after its close: totals and offline sum 0, mark clear, the pending ceiling active (R47, R54). -/
def RouteAccount.afterClose (a : RouteAccount) : RouteAccount := ⟨Totals.zero, 0, false, a.pending, a.pending⟩

/-- The terminal subtotal list of a route: the entries on the route with a nonzero count, in terminal order (R18, R110). -/
def subtotals (ts : Vector Terminal 64) (r : RouteNo) : List (TerminalNo × Totals) :=
  (List.finRange 64).filterMap fun t =>
    let e := Vec.get ts t
    let n := e.totals
    if e.route = r ∧ (n.saleCount ≠ 0 ∨ n.refundCount ≠ 0 ∨ n.reversalCount ≠ 0 ∨ n.voidCount ≠ 0 ∨ n.offlineCount ≠ 0) then
      some (t, n)
    else none

/-- The offline decision on an AUTH of a DOWN route (R45): `none` accepts. -/
def offlineRefusal (a floor : Nat) (acc : RouteAccount) : Option Code :=
  if floor < a then some .routeDown
  else if acc.active < acc.offline + a then some .offlineLimit
  else none

end Sys2Proof.Machine
end

