-- ==== Sys2Proof/Machine/Store.lean ====
section
/-! DEFINITION. The record store: the slots that hold a record, as (slot, record) pairs in one canonical form, slot
numbers strictly rising (R96). A free slot is not listed. -/

namespace Sys2Proof.Machine

/-- The canonical form: slot numbers strictly rise. -/
def Store.wf : List (Nat × Record) → Bool
  | [] => true
  | [_] => true
  | a :: b :: rest => decide (a.1 < b.1) && Store.wf (b :: rest)

/-- The record in a slot; none when the slot is free. -/
def Store.find : List (Nat × Record) → Nat → Option Record
  | [], _ => none
  | c :: rest, n => if c.1 = n then some c.2 else Store.find rest n

/-- A record written into a slot. -/
def Store.put : List (Nat × Record) → Nat → Record → List (Nat × Record)
  | [], n, r => [(n, r)]
  | c :: rest, n, r =>
    if n < c.1 then (n, r) :: c :: rest
    else if c.1 = n then (n, r) :: rest
    else c :: Store.put rest n r

/-- A slot freed and its record erased. -/
def Store.free (st : List (Nat × Record)) (n : Nat) : List (Nat × Record) := st.filter fun c => c.1 != n

end Sys2Proof.Machine
end

