-- ==== Sys2Proof/Machine/Queues.lean ====
section
/-! DEFINITION. The Queue Manager: layout, rings, room, rewind, freeing, route close and pending closes
(06_record_store_and_route_queues.md). -/

namespace Sys2Proof.Machine

/-! ### Layout (R96, R97) -/

/-- Where a ring lies in the record store. -/
structure RingPlace where
  base : Nat
  size : Nat
deriving DecidableEq, Repr

/-- Slot of a position: the position modulo the size, from the ring's first slot (R99). -/
def RingPlace.slot (g : RingPlace) (pos : Nat) : Nat := g.base + pos % g.size

/-- Size of a route's store ring (R96); 0 for a route that is not defined. -/
def ringSize : Option RouteConfig → Nat
  | some c => 2 ^ c.k
  | none => 0

/-- Sum of the store rings of the routes below `n`. -/
def ringsBelow (config : Vector (Option RouteConfig) 4) (n : Nat) : Nat :=
  (((List.finRange 4).filter fun r => r.val < n).map fun r => ringSize (Vec.get config r)).sum

/-- A route's live ring (R96). -/
def livePlace (r : RouteNo) : RingPlace := ⟨Config.liveSize * r.val, Config.liveSize⟩

/-- A route's store ring (R96). -/
def storePlace (config : Vector (Option RouteConfig) 4) (r : RouteNo) : RingPlace :=
  ⟨Config.liveSlots + ringsBelow config r.val, ringSize (Vec.get config r)⟩

/-- First slot after the last store ring (R96). -/
def poolStart (config : Vector (Option RouteConfig) 4) : Nat := Config.liveSlots + ringsBelow config 4

/-- Every pool slot, in increasing order (R97). -/
def poolSlots (config : Vector (Option RouteConfig) 4) : List Nat :=
  List.range' (poolStart config) (Config.storeSlots - poolStart config)

/-! ### Rings (R99) -/

/-- Number of records between top and bottom (R99). -/
def Ring.occupancy (g : Ring) : Nat := g.bottom - g.top

/-- The positions from top up to but not including bottom. -/
def Ring.positions (g : Ring) : List Nat := List.range' g.top g.occupancy

/-- The record in a slot is in a given state. -/
def slotIs (slots : List (Nat × Record)) (n : Nat) (st : RecordState) : Bool :=
  match Store.find slots n with
  | some r => r.state == st
  | none => false

/-- The offer point by its definition: the first PENDING record at or after top, or bottom (R99). -/
def Ring.seekOffer (g : Ring) (place : RingPlace) (slots : List (Nat × Record)) : Ring :=
  { g with offer := (g.positions.find? fun p => slotIs slots (place.slot p) .pending).getD g.bottom }

/-- Top advances over every ACKED record without a break, and each slot it passes over is freed (R105). -/
def sweepTop (place : RingPlace) : Nat → Ring → List (Nat × Record) → Ring × List (Nat × Record)
  | 0, g, slots => (g, slots)
  | n + 1, g, slots =>
    if slotIs slots (place.slot g.top) .acked then
      sweepTop place n { g with top := g.top + 1 } (Store.free slots (place.slot g.top))
    else (g, slots)

/-! ### A route's records -/

/-- The slots of a route's live ring from top to bottom. -/
def RouteQueue.liveSlots (q : RouteQueue) (r : RouteNo) : List Nat := q.live.positions.map (livePlace r).slot

/-- The slots of a route's store ring from top to bottom. -/
def RouteQueue.ringSlots (q : RouteQueue) (place : RingPlace) : List Nat := q.store.positions.map place.slot

/-- The slots that hold the route's data records: live ring, store ring, overflow part. -/
def routeSlots (q : RouteQueue) (r : RouteNo) (place : RingPlace) : List Nat :=
  q.liveSlots r ++ q.ringSlots place ++ q.overflow

/-- A route's store ring in the configuration in force. -/
def State.storePlace (s : State) (r : RouteNo) : RingPlace := Machine.storePlace s.status.config r

/-- The slots of a route's data records. -/
def State.slotsOf (s : State) (r : RouteNo) : List Nat := routeSlots (s.queue r) r (s.storePlace r)

/-- The record in a slot. -/
def State.at? (s : State) (slot : Nat) : Option Record := Store.find s.qm.slots slot

/-- How many of the route's data records are in a state (R100). DEDUCED (log 16). -/
def State.countIn (s : State) (r : RouteNo) (st : RecordState) : Nat :=
  (s.slotsOf r).countP fun n => slotIs s.qm.slots n st

/-- The slot of the route's data record with an identity. -/
def State.slotOf (s : State) (r : RouteNo) (id : Identity) : Option Nat :=
  (s.slotsOf r).find? fun n =>
    match s.at? n with
    | some rec => rec.id == id
    | none => false

/-- A record rewritten in its slot. -/
def State.writeSlot (s : State) (slot : Nat) (rec : Record) : State :=
  { s with qm := { s.qm with slots := Store.put s.qm.slots slot rec } }

/-- A route's queue state with both offer points set by their definition (R99). -/
def RouteQueue.seek (q : RouteQueue) (r : RouteNo) (place : RingPlace) (slots : List (Nat × Record)) : RouteQueue :=
  { q with live := q.live.seekOffer (livePlace r) slots, store := q.store.seekOffer place slots }

/-- Both offer points of a route set by their definition (R99). -/
def State.seek (s : State) (r : RouteNo) : State :=
  s.setQueue r ((s.queue r).seek r (s.storePlace r) s.qm.slots)

/-! ### Room (R100) -/

/-- 1 while a wrap in flight holds a reserved slot of the route's live ring. -/
def Engine.holdsLive : Engine → RouteNo → Nat
  | .busy ⟨r', _, .live _, _⟩ _, r => if r' = r then 1 else 0
  | _, _ => 0

/-- 1 while a wrap in flight holds a reserved slot of the route's store ring. -/
def Engine.holdsRing : Engine → RouteNo → Nat
  | .busy ⟨r', _, .store _, _⟩ _, r => if r' = r then 1 else 0
  | _, _ => 0

/-- Live room (R100). -/
def State.liveRoom (s : State) (r : RouteNo) : Nat :=
  Config.liveSize - (s.queue r).live.occupancy - s.engine.holdsLive r

/-- Ring room (R100). -/
def State.ringRoom (s : State) (r : RouteNo) : Nat :=
  ringSize (s.config r) - (s.queue r).store.occupancy - s.engine.holdsRing r

/-- The route may use the pool (R97). -/
def mayPool : Option RouteConfig → Bool
  | some c => c.allow
  | none => false

/-- Store room (R100). -/
def State.storeRoom (s : State) (r : RouteNo) : Nat :=
  if (s.queue r).overflow.isEmpty then
    s.ringRoom r + (if mayPool (s.config r) then s.qm.poolFree.length else 0)
  else s.qm.poolFree.length

/-- The route's ring room is at or below its high-water room (R102). -/
def State.ringLow (s : State) (r : RouteNo) : Bool :=
  match s.config r with
  | some c => decide (s.ringRoom r ≤ c.highWater)
  | none => false

/-! ### Rewind (R104) -/

/-- A record that was OFFERED, PENDING again (R104). -/
def Record.rewound (rec : Record) : Record := if rec.state = .offered then { rec with state := .pending } else rec

/-- The records of some slots rewound. -/
def rewindSlots (slots : List (Nat × Record)) (ns : List Nat) : List (Nat × Record) :=
  slots.map fun c => if ns.contains c.1 then (c.1, c.2.rewound) else c

/-- The Terminal Table after the report of each rewound record (R17, R104). -/
def rewindReports (engine : Engine) (slots : List (Nat × Record)) (ns : List Nat) (ts : Vector Terminal 64) :
    Vector Terminal 64 :=
  ns.foldl (fun ts n =>
    match Store.find slots n with
    | some rec => if rec.state = .offered then reportTo engine ts rec.terminal rec.id .rewound else ts
    | none => ts) ts

/-- A close record that was OFFERED, PENDING again (R104). -/
def CloseRecord.rewound (c : CloseRecord) : CloseRecord := if c.state = .offered then { c with state := .pending } else c

/-- A route's queue state after its rewind: the close record PENDING, the offer points set again (R104). -/
def RouteQueue.rewound (q : RouteQueue) (r : RouteNo) (place : RingPlace) (slots : List (Nat × Record)) : RouteQueue :=
  { q.seek r place slots with buffer := q.buffer.map CloseRecord.rewound }

/-- A rewind: every OFFERED data record of the route and an OFFERED close record become PENDING in place, their offer
counts kept, each change of a data record reported, the offer points set again (R104). -/
def State.rewind (s : State) (r : RouteNo) : State :=
  let ns := s.slotsOf r
  let slots := rewindSlots s.qm.slots ns
  { s with
    qm := { s.qm with
      slots := slots
      queues := Vec.put s.qm.queues r ((s.queue r).rewound r (s.storePlace r) slots) }
    terminals := rewindReports s.engine s.qm.slots ns s.terminals }

/-! ### Freeing (R105, R106) -/

/-- What an acknowledgement of the record in a slot frees: an overflow record leaves the part and its slot goes to the back
of the pool's free list (R106); a ring record that stands at top lets top advance, and otherwise frees nothing (R105). The
record is already ACKED. -/
def freeAfterAck (qm : QueueManager) (r : RouteNo) (place : RingPlace) (slot : Nat) : QueueManager :=
  let q := Vec.get qm.queues r
  if q.overflow.contains slot then
    { slots := Store.free qm.slots slot
      poolFree := qm.poolFree ++ [slot]
      queues := Vec.put qm.queues r { q with overflow := q.overflow.filter (· != slot) } }
  else if slot < Config.liveSlots then
    let (g, slots) :=
      if (livePlace r).slot q.live.top = slot then sweepTop (livePlace r) q.live.occupancy q.live qm.slots
      else (q.live, qm.slots)
    { qm with slots := slots, queues := Vec.put qm.queues r { q with live := g.seekOffer (livePlace r) slots } }
  else
    let (g, slots) :=
      if place.slot q.store.top = slot then sweepTop place q.store.occupancy q.store qm.slots
      else (q.store, qm.slots)
    { qm with slots := slots, queues := Vec.put qm.queues r { q with store := g.seekOffer place slots } }

/-- An OFFERED data record acknowledged at the queues: ACKED, reported, and what can be freed is freed (R105, R106). -/
def State.ackRecord (s : State) (r : RouteNo) (slot : Nat) (rec : Record) : State :=
  let s := (s.writeSlot slot { rec with state := .acked }).report rec.terminal rec.id .acked
  { s with qm := freeAfterAck s.qm r (s.storePlace r) slot }

/-! ### Route close (R109 to R111) -/

/-- The batch after a batch: 65,535 is followed by 1 (R109). -/
def nextBatch (b : Nat) : Nat := if b = 65535 then 1 else b + 1

/-- The close record of a route's current batch (R110). -/
def State.closeRecord (s : State) (r : RouteNo) (reason : CloseReason) : CloseRecord :=
  let q := s.queue r
  let a := s.account r
  { id := ⟨r, q.batch, q.nextSeq⟩
    reason := reason
    opened := q.opened
    closed := s.time
    totals := a.totals
    offline := a.offline
    overflow := a.overflow
    subtotals := subtotals s.terminals r
    state := .pending
    offers := 0 }

/-- A route's queue state after its close: the buffer filled, the next batch begun, flags and pending close cleared
(R109). -/
def RouteQueue.afterClose (q : RouteQueue) (c : CloseRecord) : RouteQueue :=
  { q with
    batch := nextBatch q.batch
    nextSeq := 1
    opened := c.closed
    buffer := some c
    pending := none
    full := false }

/-- The terminal entries after a route's close: totals of the entries on the route zeroed, the release test applied to
them (R109 steps 3 and 5). -/
def closeTerminals (engine : Engine) (ts : Vector Terminal 64) (r : RouteNo) : Vector Terminal 64 :=
  Vec.gen fun t =>
    let e := Vec.get ts t
    if e.route = r then release engine t { e with totals := Totals.zero } else e

/-- A route close performed, with its reason (R109). -/
def State.performClose (s : State) (r : RouteNo) (reason : CloseReason) : State :=
  { s with
    qm := { s.qm with queues := Vec.put s.qm.queues r ((s.queue r).afterClose (s.closeRecord r reason)) }
    accounts := Vec.put s.accounts r (s.account r).afterClose
    terminals := closeTerminals s.engine s.terminals r }

/-- What the requester of a close is told (R109, R146). -/
inductive CloseOutcome where
  | performed (id : Identity)
  | waits (wait : CloseWait)
  | joined (reason : CloseReason) (wait : CloseWait)
deriving DecidableEq, Repr

/-- A close pending on the buffer, with its deferred mark, raised and logged (R111). -/
def State.deferClose (s : State) (r : RouteNo) (reason : CloseReason) : State :=
  let s := s.setQueue r { s.queue r with pending := some ⟨reason, .buffer, true⟩ }
  (s.raise .closeDeferred).logFault .closeDeferred r.val

/-- A close requested: performed, made pending, or joined to the close already pending (R109, R111). -/
def State.requestClose (s : State) (r : RouteNo) (reason : CloseReason) : State × CloseOutcome :=
  let q := s.queue r
  match q.pending with
  | some p => (s, .joined p.reason p.wait)
  | none =>
    if q.buffer.isSome then (s.deferClose r reason, .waits .buffer)
    else if s.engine.servesRoute r then
      (s.setQueue r { q with pending := some ⟨reason, .wrap, false⟩ }, .waits .wrap)
    else (s.performClose r reason, .performed ⟨r, q.batch, q.nextSeq⟩)

/-- The reason of a pending close when it is performed: DEFERRED with the deferred mark, its own otherwise (R111). -/
def ClosePending.reasonNow (p : ClosePending) : CloseReason := if p.deferred then .deferred else p.reason

/-- A close pending on a buffer that is FREE is performed, or waits for a wrap of the route in flight (R111). -/
def State.settleDeferred (s : State) (r : RouteNo) : State :=
  let q := s.queue r
  match q.pending with
  | none => s
  | some p =>
    if p.wait = .buffer ∧ q.buffer = none then
      if s.engine.servesRoute r then s.setQueue r { q with pending := some { p with wait := .wrap } }
      else s.performClose r p.reasonNow
    else s

/-- A close that waited for a wrap of the route is performed once the wrap is gone (R91, R94). -/
def State.settleWaiting (s : State) (r : RouteNo) : State :=
  let q := s.queue r
  match q.pending with
  | some p => if p.wait = .wrap ∧ q.buffer = none then s.performClose r p.reasonNow else s
  | none => s

end Sys2Proof.Machine
end

