-- ==== Sys2Proof/Machine/Offers.lean ====
section
/-! DEFINITION. The Dispatch Controller's shared operations: selection, offers, taking a route DOWN, acknowledgements, and
the transmitters (07_dispatch_and_acknowledgement.md). -/

namespace Sys2Proof.Machine

/-! ### Heads (R103, R108) -/

/-- The record in a slot, with the slot. -/
def State.slotRecord (s : State) (n : Nat) : Option (Nat × Record) := (s.at? n).map fun rec => (n, rec)

/-- Live head: the record at the live ring's offer point (R103). -/
def State.liveHead (s : State) (r : RouteNo) : Option (Nat × Record) :=
  let g := (s.queue r).live
  if g.offer < g.bottom then s.slotRecord ((livePlace r).slot g.offer) else none

/-- Store head: the record at the store ring's offer point, else the first PENDING record of the overflow part (R103). -/
def State.storeHead (s : State) (r : RouteNo) : Option (Nat × Record) :=
  let q := s.queue r
  if q.store.offer < q.store.bottom then s.slotRecord ((s.storePlace r).slot q.store.offer)
  else
    match q.overflow.find? fun n => slotIs s.qm.slots n .pending with
    | some n => s.slotRecord n
    | none => none

/-- A data record of a batch in one of some slots is PENDING. -/
def batchPending (slots : List (Nat × Record)) (ns : List Nat) (batch : Nat) : Bool :=
  ns.any fun n =>
    match Store.find slots n with
    | some rec => rec.state == .pending && rec.id.batch == batch
    | none => false

/-- The close record when it is PENDING and eligible (R103, R108). -/
def State.closeHead (s : State) (r : RouteNo) : Option CloseRecord :=
  match (s.queue r).buffer with
  | some c =>
    if c.state = .pending ∧ batchPending s.qm.slots (s.slotsOf r) c.id.batch = false then some c else none
  | none => none

/-! ### Selection (R119, R120) -/

/-- The record chosen for an offer. -/
inductive Choice where
  | data (slot : Nat) (rec : Record)
  | close (c : CloseRecord)
deriving DecidableEq, Repr

/-- The choice between two data heads by the drain ratio, and the accumulator after it (R120). -/
def drainChoice (e plus minus : Nat) (live store : Nat × Record) : Choice × Nat :=
  if e ≤ minus then (.data store.1 store.2, e + plus - minus) else (.data live.1 live.2, e - minus)

/-- The choice among the three heads, and the accumulator after it (R119). -/
def chooseHead (e plus minus : Nat) (close : Option CloseRecord) (live store : Option (Nat × Record)) :
    Option (Choice × Nat) :=
  match close with
  | some c => some (.close c, e)
  | none =>
    match live, store with
    | some l, some st => some (drainChoice e plus minus l st)
    | some l, none => some (.data l.1 l.2, e)
    | none, some st => some (.data st.1 st.2, e)
    | none, none => none

/-- The record an offer of the route would take now (R119). -/
def State.choose (s : State) (r : RouteNo) (c : RouteConfig) : Option (Choice × Nat) :=
  chooseHead (s.route r).e c.plus c.minus (s.closeHead r) (s.liveHead r) (s.storeHead r)

/-! ### The offer (R121) -/

/-- The offer count after one more offer, held at 255 (R103). -/
def moreOffers (n : Nat) : Nat := min (n + 1) 255

/-- The acknowledgement timer started for a first entry; STOPPED for a timeout of 0 (R131). -/
def startTimer (c : RouteConfig) : AckTimer := if c.timeout = 0 then .stopped else .running c.timeout

/-- The tag of a tag index (R121). -/
def tagOf (c : RouteConfig) (i : Nat) : Nat := c.tagStart + i % (c.tagEnd - c.tagStart + 1)

/-- The tag index after an offer: 65,535 is followed by 0 (R115, R121). -/
def nextTag (i : Nat) : Nat := if i = 65535 then 0 else i + 1

/-- The dispatch state after an offer of a record (R121 steps 2 to 4). -/
def RouteDispatch.offering (d : RouteDispatch) (c : RouteConfig) (id : Identity) (e : Nat) : RouteDispatch :=
  { d with
    e := e
    offered := d.offered ++ [id]
    tag := nextTag d.tag
    timer := if d.offered.isEmpty then startTimer c else d.timer }

/-- A record made OFFERED, its offer count raised (R103). -/
def Record.offering (rec : Record) : Record := { rec with state := .offered, offers := moreOffers rec.offers }

/-- A close record made OFFERED, its offer count raised (R103). -/
def CloseRecord.offering (c : CloseRecord) : CloseRecord := { c with state := .offered, offers := moreOffers c.offers }

/-- The offer of a data record (R121): at the queues, at the Terminal Table, on the offered list. -/
def State.offerData (s : State) (r : RouteNo) (c : RouteConfig) (slot : Nat) (rec : Record) (e : Nat) : State :=
  let slots := Store.put s.qm.slots slot rec.offering
  { s with
    qm := { s.qm with
      slots := slots
      queues := Vec.put s.qm.queues r ((s.queue r).seek r (s.storePlace r) slots) }
    terminals := reportTo s.engine s.terminals rec.terminal rec.id .offered
    dispatch := Vec.put s.dispatch r ((s.route r).offering c rec.id e) }

/-- The offer of the close record (R121). -/
def State.offerClose (s : State) (r : RouteNo) (c : RouteConfig) (cl : CloseRecord) (e : Nat) : State :=
  { s with
    qm := { s.qm with queues := Vec.put s.qm.queues r { s.queue r with buffer := some cl.offering } }
    dispatch := Vec.put s.dispatch r ((s.route r).offering c cl.id e) }

/-- One offer of the route: the state after it and the offered frame, or none where nothing can be chosen (R121). -/
def State.offer (s : State) (r : RouteNo) (c : RouteConfig) (corr : Byte) : Option (State × Message) :=
  let tag := tagOf c (s.route r).tag
  match s.choose r c with
  | none => none
  | some (.data slot rec, e) => some (s.offerData r c slot rec e, .offered corr r tag (.data rec.offering))
  | some (.close cl, e) => some (s.offerClose r c cl e, .offered corr r tag (.close cl.offering))

/-- The offered list holds fewer than W entries (R119). -/
def State.windowOpen (s : State) (r : RouteNo) (c : RouteConfig) : Bool := decide ((s.route r).offered.length < c.window)

/-- What the offers of a PULL BLOCK came to. -/
structure OfferRun where
  frames : List Message
  state  : State
  cause  : EndCause

/-- The offers of a PULL BLOCK, one after another (R123). -/
def State.offerRun (r : RouteNo) (c : RouteConfig) (corr : Byte) : Nat → State → OfferRun
  | 0, s => ⟨[], s, .count⟩
  | n + 1, s =>
    if s.windowOpen r c then
      match s.offer r c corr with
      | none => ⟨[], s, .empty⟩
      | some (s', m) =>
        let rest := State.offerRun r c corr n s'
        ⟨m :: rest.frames, rest.state, rest.cause⟩
    else ⟨[], s, .windowFull⟩

/-! ### Taking a route DOWN (R118, R132) -/

/-- The dispatch state of an UP route taken DOWN: e and i keep their values (R118). -/
def RouteDispatch.takenDown (d : RouteDispatch) (why : DownReason) : RouteDispatch :=
  { d with state := .down why, offered := [], timer := .stopped, stream := none }

/-- An UP route taken DOWN: STREAM_END on the link of an OPEN stream, the rewind, the list emptied, the timer stopped (R118
steps 1 to 5, R132 steps 1 to 4). -/
def State.takeDown (s : State) (r : RouteNo) (why : DownReason) (cause : EndCause) : State :=
  let ended :=
    match (s.route r).stream with
    | some st => s.send st.link (.streamEnd st.corr r cause)
    | none => s
  (ended.rewind r).setRoute r ((s.route r).takenDown why)

/-! ### Acknowledgement (R130) -/

/-- The dispatch state once an entry has left the offered list: the timer starts afresh for a new first entry or stops when
the list is empty, and is unchanged when the entry was not first (R130, R131). -/
def RouteDispatch.unlisting (d : RouteDispatch) (c : RouteConfig) (id : Identity) : RouteDispatch :=
  let rest := d.offered.erase id
  { d with
    offered := rest
    timer :=
      if d.offered.head? = some id then (if rest.isEmpty then .stopped else startTimer c) else d.timer }

/-- The record of the route with an identity is OFFERED: the close record, or a data record (R127). -/
def State.isOffered (s : State) (r : RouteNo) (id : Identity) : Bool :=
  match s.slotOf r id with
  | some n => slotIs s.qm.slots n .offered
  | none =>
    match (s.queue r).buffer with
    | some cl => cl.id == id && cl.state == .offered
    | none => false

/-- The queues' part of an acknowledgement: a data record is ACKED and freed where it can be; a close record leaves its
buffer FREE, and a close pending on the buffer is then performed or waits for a wrap (R130 step 2). -/
def State.ackAtQueues (s : State) (r : RouteNo) (id : Identity) : State :=
  match s.slotOf r id with
  | some n =>
    match s.at? n with
    | some rec => if rec.state = .offered then s.ackRecord r n rec else s
    | none => s
  | none =>
    match (s.queue r).buffer with
    | some cl => if cl.id = id then (s.setQueue r { s.queue r with buffer := none }).settleDeferred r else s
    | none => s

/-- One OFFERED record acknowledged (R130). -/
def State.acknowledge (s : State) (r : RouteNo) (c : RouteConfig) (id : Identity) : State :=
  (s.setRoute r ((s.route r).unlisting c id)).ackAtQueues r id

/-- Records acknowledged one after another. -/
def State.acknowledgeAll (s : State) (r : RouteNo) (c : RouteConfig) (ids : List Identity) : State :=
  ids.foldl (fun s id => s.acknowledge r c id) s

/-- Age of a batch number: the current batch less it, modulo 65,535 (R129). -/
def batchAge (current b : Nat) : Nat := (current + 65535 - b) % 65535

/-- A record of batch b and sequence s stands at or below the pair B, S (R129). -/
def atOrBelow (current b sq B S : Nat) : Bool :=
  decide (batchAge current B < batchAge current b) || (batchAge current b == batchAge current B && decide (sq ≤ S))

/-- The entries of the offered list that ACK THROUGH covers, in list order (R129). -/
def State.covered (s : State) (r : RouteNo) (B S : Nat) : List Identity :=
  (s.route r).offered.filter fun id => atOrBelow (s.queue r).batch id.batch id.seq B S

/-! ### The transmitters (R125, R126, R156) -/

/-- The route's stream is OPEN on the link and ready (R125). -/
def State.streamReady (s : State) (l : LinkId) (r : RouteNo) : Bool :=
  match s.config r, (s.route r).stream with
  | some c, some st =>
    st.link == l && s.status.part == .running && (s.route r).state == .up && s.windowOpen r c && (s.choose r c).isSome
  | _, _ => false

/-- The routes in the order of a search that begins after a pointer and ends with the pointer's own (R66, R126). -/
def rotationFrom (p : Fin 4) : List (Fin 4) := [p + 1, p + 2, p + 3, p]

/-- The ready stream the transmitter of a link would choose (R126 step 2). -/
def State.nextStream (s : State) (l : LinkId) : Option RouteNo :=
  (rotationFrom (s.link l).pointer).find? fun r => s.streamReady l r

/-- The stream after one of its offers: the count goes down by one, is reloaded at 0 with renew, and closes the stream at 0
without it (R125). -/
def OpenStream.counted (st : OpenStream) : Option OpenStream :=
  if 1 < st.current then some { st with current := st.current - 1 }
  else if st.renew then some { st with current := st.base }
  else none

/-- STREAM_END with cause COUNT joins the stream's link when its count has closed it (R125). -/
def State.endByCount (s : State) (r : RouteNo) (st : OpenStream) : State :=
  match st.counted with
  | some _ => s
  | none => s.send st.link (.streamEnd st.corr r .count)

/-- The transmitter of a link serves the ready stream of a route: one offer, its frame on the wire, the pointer at the
route, the stream's count taken down (R125, R126 step 2). -/
def State.serveStream (s : State) (l : LinkId) (r : RouteNo) : State :=
  match s.config r, (s.route r).stream with
  | some c, some st =>
    match s.offer r c st.corr with
    | some (s', m) =>
      let s1 := s'.setLink l { s'.link l with sending := some m.send, pointer := r }
      let s2 := s1.setRoute r { s1.route r with stream := st.counted }
      s2.endByCount r st
    | none => s
  | _, _ => s

/-- The front of a response queue is a message: the entry's first message leaves the queue for the wire (R126 step 1). -/
def Link.takeMessage (k : Link) : Option Link :=
  match k.queue with
  | .run m [] :: rest => some { k with queue := rest, sending := some m.send }
  | .run m (m' :: more) :: rest => some { k with queue := .run m' more :: rest, sending := some m.send }
  | _ => none

/-- The arbiter of an idle transmitter takes the next message: the front of the response queue when it is a message, else
a ready stream's frame, else nothing (R126). -/
def State.nextMessage (s : State) (l : LinkId) : State :=
  match (s.link l).takeMessage with
  | some k => s.setLink l k
  | none =>
    match s.nextStream l with
    | some r => s.serveStream l r
    | none => s

end Sys2Proof.Machine
end

