-- ==== Sys2Proof/Machine/Lanes.lean ====
section
/-! DEFINITION. The lane requests and the lane holds: arrival checks, LANE STATUS, HOLD LANE, RELEASE LANE, and the
eligibility of lane heads (04_intake_and_arbitration.md). -/

namespace Sys2Proof.Machine

/-! ### Arrival (R60, R61) -/

/-- The class of a request: a REVERSAL is urgent (R59). -/
def Request.urgent (q : Request) : Bool :=
  match q.item with
  | .reversal _ => true
  | _ => false

/-- The lane with a request at the back of its queue. -/
def Lane.push (k : Lane) (q : Request) : Lane := { k with queue := k.queue ++ [q] }

/-- Checks 5 to 8 of R60 on a wrap request whose fixed part is whole; none when the request joins its lane's queue. -/
def arrivalRefusal (s : State) (i : LaneNo) (w : WrapBytes) : Option Code :=
  match indexOf 64 w.terminal with
  | none => some .terminalRange
  | some t =>
    let e := s.term t
    if e.state = .vacant then some .terminalVacant
    else if e.lane ≠ i then some .wrongLane
    else if w.declared < 8 ∨ 64 < w.declared then some .cardLength
    else if w.card.length < w.declared then some .cardShort
    else if w.declared < w.card.length then some .cardLong
    else if Config.intakeLimit ≤ (s.lane i).queue.length then some .busy
    else none

/-- The terminal a wrap request names. -/
def WrapBytes.terminalNo (w : WrapBytes) : TerminalNo := (indexOf 64 w.terminal).getD 0

/-- The request that joins an intake queue (R59). -/
def WrapBytes.request (w : WrapBytes) (kind : WrapKind) (i : LaneNo) (corr : Byte) : Request :=
  ⟨i, corr, w.item kind, w.terminalNo, w.till, w.card⟩

/-- A wrap request on a lane, checks 4 to 8 of R60. -/
def wrapRequestAct (kind : WrapKind) (i : LaneNo) (corr : Byte) (p : List Byte) (s : State) : State :=
  if s.status.part = .running then
    match parseWrap p with
    | none => s.answer (.lane i) corr .cardShort
    | some w =>
      match arrivalRefusal s i w with
      | some code => s.answer (.lane i) corr code
      | none => s.setLane i ((s.lane i).push (w.request kind i corr))
  else s.answer (.lane i) corr .notRunning

/-- A request that only a lane may send: PRIVILEGE on the dispatch link and the service port (R61, R155). -/
def laneRequest (kind : Byte) (l : LinkId) (corr : Byte) (p : List Byte) (act : LaneNo → State → State) (s : State) : State :=
  match frameArrives l (kind :: corr :: p) s with
  | .gone s' => s'
  | .taken s' =>
    match l with
    | .lane i => act i s'
    | .dispatch => s'.answer .dispatch corr .privilege
    | .service => s'.answer .service corr .privilege

/-- AUTH at its arrival (R60). -/
def execAuth (l : LinkId) (corr : Byte) (p : List Byte) (s : State) : Host.Outcome State Fault Refusal :=
  .next (laneRequest 0x01#8 l corr p (fun i => wrapRequestAct .auth i corr p) s)

/-- REFUND at its arrival (R60). -/
def execRefund (l : LinkId) (corr : Byte) (p : List Byte) (s : State) : Host.Outcome State Fault Refusal :=
  .next (laneRequest 0x02#8 l corr p (fun i => wrapRequestAct .refund i corr p) s)

/-- REVERSAL at its arrival (R60). -/
def execReversal (l : LinkId) (corr : Byte) (p : List Byte) (s : State) : Host.Outcome State Fault Refusal :=
  .next (laneRequest 0x03#8 l corr p (fun i => wrapRequestAct .reversal i corr p) s)

/-! ### Eligibility (R64) -/

/-- A family is LOADING or ROLLING. -/
def FamilyRecord.working (k : FamilyRecord) : Bool := k.state == .loading || k.state == .rolling

/-- Condition 4 of R64 fails: the terminal's entry is not VACANT and names a family that is LOADING or ROLLING. -/
def State.familyBlocks (s : State) (t : TerminalNo) : Bool :=
  (s.term t).state != .vacant && (s.family (s.term t).family).now.working

/-- Head state of a lane, read from conditions 1 and 4 alone (R62, R64). -/
def State.headState (s : State) (i : LaneNo) : HeadState :=
  match (s.lane i).queue with
  | [] => .noHead
  | q :: _ => if (s.lane i).held then .laneHeld else if s.familyBlocks q.terminal then .familyBusy else .eligible

/-- Conditions 2 and 3 of R64: no wrap in flight, grants not held by the Cut-over Unit or the part state. -/
def State.grantsOpen (s : State) : Bool :=
  s.engine.isIdle && s.cutover.stage == .idle && s.status.part == .running

/-- A lane's head is eligible (R64). -/
def State.eligible (s : State) (i : LaneNo) : Bool := s.grantsOpen && s.headState i == .eligible

/-! ### LANE STATUS (R62) -/

/-- What LANE STATUS reports (R62). -/
def State.laneReport (s : State) (i : LaneNo) : LaneReport :=
  { part := s.status.part
    held := (s.lane i).held
    queued := (s.lane i).queue.length
    head := s.headState i
    cutover := s.cutover.stage != .idle
    inFlight := s.engine.servesLane i
    near := s.cutover.near }

/-- LANE STATUS on a lane (R62). -/
def laneStatusAct (corr : Byte) (i : LaneNo) (s : State) : State := s.answer (.lane i) corr .done (.lane (s.laneReport i))

/-- LANE STATUS (R62); its payload may have any length and is not read (R174). -/
def execLaneStatus (l : LinkId) (corr : Byte) (p : List Byte) (s : State) : Host.Outcome State Fault Refusal :=
  .next (laneRequest 0x04#8 l corr p (laneStatusAct corr) s)

/-! ### HOLD LANE and RELEASE LANE (R69) -/

/-- HOLD LANE and RELEASE LANE with their checks (R69). -/
def laneHoldAct (held : Bool) (l : LinkId) (corr : Byte) (b : Byte) (s : State) : State :=
  if s.status.part = .running then
    match indexOf 4 b with
    | none => s.answer l corr .badParameter
    | some i => (s.setLane i { s.lane i with held := held }).answer l corr .done (.hold held (s.lane i).queue.length)
  else s.answer l corr .notRunning

/-- HOLD LANE (R69). -/
def execHoldLane (l : LinkId) (corr : Byte) (p : List Byte) (s : State) : Host.Outcome State Fault Refusal :=
  .next (request 0x25#8 1 parseByte id l corr p (laneHoldAct true l corr) s)

/-- RELEASE LANE (R69). -/
def execReleaseLane (l : LinkId) (corr : Byte) (p : List Byte) (s : State) : Host.Outcome State Fault Refusal :=
  .next (request 0x26#8 1 parseByte id l corr p (laneHoldAct false l corr) s)

end Sys2Proof.Machine
end

