-- ==== Sys2Proof/Machine/Families.lean ====
section
/-! DEFINITION. The Key Family Unit's commands and completions (02_key_families.md), and the Cut-over Unit's return to IDLE,
which a roll's completion may bring about (R145). -/

namespace Sys2Proof.Machine

/-! ### The start and the end of family work -/

/-- A family with work taken up: the record copied into the prior contents, the operation named, the state changed (R28,
R31, R33). -/
def Family.begin (k : Family) (op : FamilyOp) (st : FamilyState) : Family :=
  { now := { k.now with state := st }, op := op, prior := some k.now }

/-- A family after work whose record is final: no operation, no prior contents (R29, R32). -/
def Family.settled (k : FamilyRecord) : Family := ⟨k, .none, none⟩

/-- A family that takes back its prior contents in full (R29, R37). -/
def Family.undone (k : Family) : Family := Family.settled (k.prior.getD k.now)

/-- KEY LOAD, ROLL FAMILY or RETIRE FAMILY would be refused FAMILY_BUSY: the family is LOADING or ROLLING, or a wrap for a
terminal on it is in flight (R28, R31, R35). -/
def State.familyBusy (s : State) (f : FamilyNo) : Bool := (s.family f).now.working || s.engine.servesFamily f

/-! ### KEY LOAD (R28, R29) -/

/-- KEY LOAD on a family, checks 3 and 4 and the effect (R28). The answer's empty place joins the link's queue (R156). -/
def keyLoadFamily (l : LinkId) (corr : Byte) (f : FamilyNo) (w : LoadWork) (s : State) : State :=
  if s.familyBusy f then s.answer l corr .familyBusy
  else if (s.family f).now.generation < 65535 then
    ((s.setFamily f ((s.family f).begin .load .loading)).setLoad f (some w)).enqueue l (.place f corr)
  else s.answer l corr .generationSpent

/-- KEY LOAD with its checks (R28). -/
def keyLoadAct (l : LinkId) (corr : Byte) (b : LoadBytes) (s : State) : State :=
  if s.status.part = .setup then s.answer l corr .notRunning
  else
    match b.load with
    | none => s.answer l corr .badParameter
    | some (f, w) => keyLoadFamily l corr f w s

/-- KEY LOAD (R28). -/
def execKeyLoad (l : LinkId) (corr : Byte) (p : List Byte) (s : State) : Host.Outcome State Fault Refusal :=
  .next (request 0x40#8 0 parseLoad id l corr p (keyLoadAct l corr) s)

/-- The state of a family at the beginning of an epoch: LOW when the low threshold is met at once (R29, R32). -/
def startState (ceiling low : Nat) : FamilyState := if ceiling ≤ low then .low else .active

/-- The record after a load whose check value matches (R29). -/
def FamilyRecord.loaded (k : FamilyRecord) (w : LoadWork) (root : Root) : FamilyRecord :=
  { state := startState w.ceiling w.low
    generation := k.generation + 1
    epoch := 0
    counter := 0
    ceiling := w.ceiling
    low := w.low
    rollAtCutover := w.rollAtCutover
    root := some root }

/-- The load of a family ends with the check value computed by the cipher core (R29). -/
def State.finishLoad (s : State) (f : FamilyNo) (w : LoadWork) (root : Root) (check : BitVec 24) : State :=
  let k := s.family f
  let base := s.setLoad f none
  if check = w.check then
    let k' := k.now.loaded w root
    ((base.setFamily f (Family.settled k')).raiseIf (k'.state == .low) .keyLow).fill f .done
      (.loaded f k'.generation k'.state)
  else (base.setFamily f k.undone).fill f .checkMismatch .bare

/-- LOAD_COMPLETION of a family (R29): nothing where no load of it is in progress. -/
def execLoadCompletion (f : FamilyNo) (s : State) : Host.Outcome State Fault Refusal :=
  .next (
    if s.awake && (s.family f).op == .load then
      match Vec.get s.keys.loads f with
      | some w =>
        let root := Config.unwrapRoot Config.transportKey w.wrapped
        s.finishLoad f w root (Config.rootCheck root)
      | none => s
    else s)

/-! ### Rolls (R31 to R33) -/

/-- ROLL FAMILY on a family, checks 4 to 6 and the effect (R31). -/
def rollFamilyOn (l : LinkId) (corr : Byte) (f : FamilyNo) (s : State) : State :=
  let k := (s.family f).now
  if k.state = .empty ∨ k.state = .retired then s.answer l corr .keyUnavailable
  else if s.familyBusy f then s.answer l corr .familyBusy
  else if k.epoch < 65535 then
    (s.setFamily f ((s.family f).begin .gatewayRoll .rolling)).enqueue l (.place f corr)
  else s.answer l corr .epochSpent

/-- ROLL FAMILY with its checks (R31). -/
def rollFamilyAct (l : LinkId) (corr : Byte) (b : Byte) (s : State) : State :=
  if s.status.part = .running then
    match indexOf 8 b with
    | none => s.answer l corr .badParameter
    | some f =>
      if s.cutover.stage = .idle then rollFamilyOn l corr f s else s.answer l corr .cutoverActive
  else s.answer l corr .notRunning

/-- ROLL FAMILY (R31). -/
def execRollFamily (l : LinkId) (corr : Byte) (p : List Byte) (s : State) : Host.Outcome State Fault Refusal :=
  .next (request 0x23#8 1 parseByte id l corr p (rollFamilyAct l corr) s)

/-- The record after a roll (R32). -/
def FamilyRecord.rolled (k : FamilyRecord) : FamilyRecord :=
  { k with
    state := startState k.ceiling k.low
    epoch := k.epoch + 1
    counter := 0
    root := k.root.map Config.rollRoot }

/-- A family's roll takes effect, with the event of a family that is LOW at once (R32). -/
def State.finishRoll (s : State) (f : FamilyNo) : State :=
  let k' := (s.family f).now.rolled
  (s.setFamily f (Family.settled k')).raiseIf (k'.state == .low) .keyLow

/-- The family after a family; none after family 7. -/
def familyAfter (f : FamilyNo) : Option FamilyNo := if h : f.val + 1 < 8 then some ⟨f.val + 1, h⟩ else none

/-- The Cut-over Unit once a family is dealt with: the next family moves on, and when it is done the match time is cleared
and the stage is IDLE (R145). -/
def CutoverUnit.familyDone (u : CutoverUnit) (f : FamilyNo) : CutoverUnit :=
  match familyAfter f with
  | some g => { u with nextFamily := some g }
  | none => { u with nextFamily := none, matchTime := none, stage := .idle }

/-- A family dealt with by the cut-over; at the last, CUTOVER_DONE is raised (R145). -/
def State.familyDone (s : State) (f : FamilyNo) : State :=
  { s with
    cutover := s.cutover.familyDone f
    status := s.status.raiseIf (familyAfter f).isNone .cutoverDone }

/-- ROLL_COMPLETION of a family (R32): a roll from ROLL FAMILY is answered, a cut-over roll is reported to the Cut-over Unit;
nothing where no roll of it is in progress. -/
def execRollCompletion (f : FamilyNo) (s : State) : Host.Outcome State Fault Refusal :=
  .next (
    if s.awake then
      match (s.family f).op with
      | .gatewayRoll =>
        let k' := (s.family f).now.rolled
        (s.finishRoll f).fill f .done (.rolled f k'.epoch k'.state)
      | .cutoverRoll => (s.finishRoll f).familyDone f
      | _ => s
    else s)

/-! ### RETIRE FAMILY (R35) -/

/-- The record of a retired family (R35). -/
def FamilyRecord.retire (k : FamilyRecord) : FamilyRecord :=
  { k with state := .retired, rollAtCutover := false, root := none }

/-- RETIRE FAMILY on a family, checks 3 and 4 and the effect (R35). -/
def retireFamilyOn (l : LinkId) (corr : Byte) (f : FamilyNo) (s : State) : State :=
  let k := (s.family f).now
  if k.state = .empty then s.answer l corr .keyUnavailable
  else if s.familyBusy f then s.answer l corr .familyBusy
  else if k.state = .retired then s.answer l corr .done
  else (s.setFamily f { s.family f with now := k.retire }).answer l corr .done

/-- RETIRE FAMILY with its checks (R35). -/
def retireFamilyAct (l : LinkId) (corr : Byte) (b : Byte) (s : State) : State :=
  if s.status.part = .setup then s.answer l corr .notRunning
  else
    match indexOf 8 b with
    | none => s.answer l corr .badParameter
    | some f => retireFamilyOn l corr f s

/-- RETIRE FAMILY (R35). -/
def execRetireFamily (l : LinkId) (corr : Byte) (p : List Byte) (s : State) : Host.Outcome State Fault Refusal :=
  .next (request 0x41#8 0 parseByte id l corr p (retireFamilyAct l corr) s)

/-! ### FAMILY QUERY (R36) -/

/-- The number of terminal entries, other than VACANT ones, on a family (R36). -/
def State.terminalsOn (s : State) (f : FamilyNo) : Nat :=
  (List.finRange 64).countP fun t => (s.term t).state != .vacant && (s.term t).family == f

/-- What FAMILY QUERY reports (R36); the root itself is not reported. -/
def State.familyReport (s : State) (f : FamilyNo) : FamilyReport :=
  let k := s.family f
  { state := k.now.state
    generation := k.now.generation
    epoch := k.now.epoch
    counter := k.now.counter
    ceiling := k.now.ceiling
    low := k.now.low
    rollAtCutover := k.now.rollAtCutover
    op := k.op
    rootPresent := k.now.root.isSome
    remaining := k.now.ceiling - k.now.counter
    inFlight := s.engine.servesFamily f
    terminals := s.terminalsOn f }

/-- FAMILY QUERY, accepted in every part state (R36). -/
def familyQueryAct (l : LinkId) (corr : Byte) (b : Byte) (s : State) : State :=
  match indexOf 8 b with
  | none => s.answer l corr .badParameter
  | some f => s.answer l corr .done (.family (s.familyReport f))

/-- FAMILY QUERY (R36). -/
def execFamilyQuery (l : LinkId) (corr : Byte) (p : List Byte) (s : State) : Host.Outcome State Fault Refusal :=
  .next (request 0x37#8 1 parseByte id l corr p (familyQueryAct l corr) s)

end Sys2Proof.Machine
end

