-- ==== Sys2Proof/Machine/Cutover.lean ====
section
/-! DEFINITION. The Cut-over Unit: the store clock, the setting, the near warning, the match and the procedure
(08_cut_over_and_batch_close.md). -/

namespace Sys2Proof.Machine

/-! ### The second tick (R131, R137, R140, R141) -/

/-- The time one second later: second 86,399 is followed by second 0 of the next day, day 65,535 by day 0 (R137). -/
def nextSecond (t : ClockTime) : ClockTime :=
  if t.sec + 1 < Config.daySeconds then ⟨t.day, t.sec + 1⟩
  else ⟨if t.day = 65535 then 0 else t.day + 1, 0⟩

/-- A second of day falls on the setting's time (R140). -/
def CutoverSetting.hits (c : CutoverSetting) (sec : Nat) : Bool :=
  match c.hour with
  | .any => sec % 3600 == c.minute * 60
  | .hour h => sec == h * 3600 + c.minute * 60

/-- The conditions that a match and the beginning of a near warning share: RUNNING, the clock set, the setting enabled, the
unit IDLE (R140, R141). -/
def State.cutoverArmed (s : State) : Bool :=
  s.status.part == .running && !s.cutover.unset && s.cutover.setting.enabled && s.cutover.stage == .idle

/-- A timer's count after a tick (R131). At 0 the expiry is due (DESIGN CHOICE, log 3). -/
def AckTimer.tick : AckTimer → AckTimer
  | .running n => .running (n - 1)
  | .stopped => .stopped

/-- Every route's timer after a tick. -/
def tickTimers (ds : Vector RouteDispatch 4) : Vector RouteDispatch 4 :=
  Vec.gen fun r => { Vec.get ds r with timer := (Vec.get ds r).timer.tick }

/-- What a tick makes due at the Cut-over Unit of a powered part (R140, R141; DESIGN CHOICE, log 3). -/
def State.tickDue (s : State) (now : ClockTime) : CutoverUnit :=
  { s.cutover with
    clock := now
    nearDue := s.cutover.nearDue ||
      (s.cutoverArmed && s.cutover.setting.hits ((now.sec + 60) % Config.daySeconds))
    matchDue := if s.cutoverArmed && s.cutover.setting.hits now.sec then some now else s.cutover.matchDue }

/-- TICK (R137): the clock advances whatever the supply; without supply or with RESET held nothing else is counted or
tested. -/
def execTick (s : State) : Host.Outcome State Fault Refusal :=
  .next (
    let now := nextSecond s.cutover.clock
    if s.awake then { s with cutover := s.tickDue now, dispatch := tickTimers s.dispatch }
    else { s with cutover := { s.cutover with clock := now } })

/-! ### Near warning and match (R141, R143) -/

/-- The Cut-over Unit with no near warning. -/
def CutoverUnit.withoutNear (u : CutoverUnit) : CutoverUnit := { u with near := false, nearDue := false }

/-- The end of a near warning, which raises no event; a warning that the last tick began and whose row has not been taken
raises CUTOVER_NEAR here (R141; DESIGN CHOICE, log 3). -/
def State.endNear (s : State) : State :=
  { s with cutover := s.cutover.withoutNear, status := s.status.raiseIf s.cutover.nearDue .cutoverNear }

/-- NEAR_WARNING (R141): nothing where no tick has made it due. -/
def execNearWarning (s : State) : Host.Outcome State Fault Refusal :=
  .next (
    if s.awake && s.cutover.nearDue then
      { s with
        cutover := { s.cutover with near := true, nearDue := false }
        status := s.status.raise .cutoverNear }
    else s)

/-- The Cut-over Unit at a match (R143). -/
def CutoverUnit.matched (u : CutoverUnit) (t : ClockTime) (engineIdle : Bool) : CutoverUnit :=
  { u.withoutNear with
    stage := if engineIdle then .closing else .waiting
    matchTime := some t
    nextRoute := some 0
    nextFamily := some 0
    matchDue := none }

/-- CUTOVER_MATCH (R143), at the time of the tick that made it due; nothing where none has. -/
def execCutoverMatch (s : State) : Host.Outcome State Fault Refusal :=
  .next (
    if s.awake then
      match s.cutover.matchDue with
      | none => s
      | some t =>
        if s.status.part = .running ∧ s.cutover.stage = .idle then
          { s with
            cutover := s.cutover.matched t s.engine.isIdle
            status := s.status.raiseIf s.cutover.nearDue .cutoverNear }
        else { s with cutover := { s.cutover with matchDue := none } }
    else s)

/-! ### The procedure (R142, R144, R145) -/

/-- CUTOVER_CLOSING_START (R142): WAITING becomes CLOSING once no wrap is in flight. -/
def execCutoverClosingStart (s : State) : Host.Outcome State Fault Refusal :=
  .next (
    if s.awake && s.cutover.stage == .waiting && s.engine.isIdle then
      { s with cutover := { s.cutover with stage := .closing } }
    else s)

/-- The defined route that follows a route (R144). -/
def State.routeAfter (s : State) (r : RouteNo) : Option RouteNo :=
  (List.finRange 4).find? fun q => decide (r < q) && s.defined q

/-- A scheduled close asked of a route; an undefined route is passed over (R144). -/
def State.askClose (s : State) (r : RouteNo) : State :=
  if s.defined r then (s.requestClose r .scheduled).1 else s

/-- The Cut-over Unit once a route has been asked: on to the next route, or to ROLLING (R144). -/
def CutoverUnit.routeDone (u : CutoverUnit) (following : Option RouteNo) : CutoverUnit :=
  { u with nextRoute := following, stage := if following.isNone then .rolling else .closing }

/-- One route's request in CLOSING (R144). -/
def State.closeNextRoute (s : State) (r : RouteNo) : State :=
  let s' := s.askClose r
  { s' with cutover := s'.cutover.routeDone (s.routeAfter r) }

/-- CUTOVER_ROUTE_CLOSE (R144): nothing outside CLOSING. -/
def execCutoverRouteClose (s : State) : Host.Outcome State Fault Refusal :=
  .next (
    if s.awake && s.cutover.stage == .closing then
      match s.cutover.nextRoute with
      | some r => s.closeNextRoute r
      | none => { s with cutover := s.cutover.routeDone none }
    else s)

/-- The Key Family Unit starts a cut-over roll of a record: ACTIVE, LOW or EXHAUSTED, epoch below 65,535 (R33). -/
def FamilyRecord.canRoll (k : FamilyRecord) : Bool :=
  (k.state == .active || k.state == .low || k.state == .exhausted) && decide (k.epoch < 65535)

/-- A family's turn in ROLLING: passed by, rolled, or refused and logged (R33, R145). -/
def State.rollTurn (s : State) (f : FamilyNo) : State :=
  let k := s.family f
  if k.now.rollAtCutover then
    if k.now.canRoll then s.setFamily f (k.begin .cutoverRoll .rolling)
    else (s.logFault .rollRefused f.val).familyDone f
  else s.familyDone f

/-- CUTOVER_FAMILY_ROLL (R145): nothing outside ROLLING, nor while the roll of the family is in progress. -/
def execCutoverFamilyRoll (s : State) : Host.Outcome State Fault Refusal :=
  .next (
    if s.awake && s.cutover.stage == .rolling then
      match s.cutover.nextFamily with
      | some f => if (s.family f).op = .cutoverRoll then s else s.rollTurn f
      | none => s
    else s)

/-! ### SET CLOCK and SET CUTOVER (R138, R139) -/

/-- The Cut-over Unit after a SET CLOCK that passes, its near warning ended (R138). -/
def CutoverUnit.setTo (u : CutoverUnit) (t : ClockTime) : CutoverUnit := { u.withoutNear with clock := t, unset := false }

/-- SET CLOCK with its checks (R138). -/
def setClockAct (l : LinkId) (corr : Byte) (t : ClockTime) (s : State) : State :=
  if s.status.part = .setup then s.answer l corr .notRunning
  else if t.sec < Config.daySeconds then
    State.answer
      { s with cutover := s.cutover.setTo t, status := s.status.raiseIf s.cutover.nearDue .cutoverNear } l corr .done
  else s.answer l corr .badParameter

/-- SET CLOCK (R138). -/
def execSetClock (l : LinkId) (corr : Byte) (p : List Byte) (s : State) : Host.Outcome State Fault Refusal :=
  .next (request 0x20#8 1 parseClock id l corr p (setClockAct l corr) s)

/-- The hour of a SET CUTOVER: 0 to 23, or FFh for ANY (R139, R174). -/
def hourOf (b : Byte) : Option CutoverHour :=
  if b = 0xFF#8 then some .any else (byteIn 0 23 b).map .hour

/-- The fields of a SET CUTOVER, when each is in range (R139). -/
def settingOf (b : Byte × Byte × Byte) : Option CutoverSetting :=
  match hourOf b.1, byteIn 0 59 b.2.1, flagOf b.2.2 with
  | some h, some m, some e => some ⟨h, m, e⟩
  | _, _, _ => none

/-- SET CUTOVER with its checks (R139). -/
def setCutoverAct (l : LinkId) (corr : Byte) (b : Byte × Byte × Byte) (s : State) : State :=
  if s.status.part = .running then
    match settingOf b with
    | none => s.answer l corr .badParameter
    | some c =>
      State.answer
        { s with
          cutover := { s.cutover.withoutNear with setting := c }
          status := s.status.raiseIf s.cutover.nearDue .cutoverNear } l corr .done
  else s.answer l corr .notRunning

/-- SET CUTOVER (R139). -/
def execSetCutover (l : LinkId) (corr : Byte) (p : List Byte) (s : State) : Host.Outcome State Fault Refusal :=
  .next (request 0x21#8 1 parseThree id l corr p (setCutoverAct l corr) s)

/-! ### CLOSE BATCH and DEFERRED_CLOSE (R111, R146) -/

/-- What the answer to CLOSE BATCH tells (R146). -/
def CloseOutcome.reply : CloseOutcome → Reply
  | .performed id => .closed id
  | .waits w => .closeWaits none w
  | .joined why w => .closeWaits (some why) w

/-- CLOSE BATCH with its checks (R146). -/
def closeBatchAct (l : LinkId) (corr : Byte) (b : Byte) (s : State) : State :=
  if s.status.part = .running then
    match indexOf 4 b with
    | none => s.answer l corr .badParameter
    | some r =>
      if s.defined r then
        if s.cutover.stage = .idle then
          let out := s.requestClose r .manual
          out.1.answer l corr .done out.2.reply
        else s.answer l corr .cutoverActive
      else s.answer l corr .routeUndefined
  else s.answer l corr .notRunning

/-- CLOSE BATCH (R146). -/
def execCloseBatch (l : LinkId) (corr : Byte) (p : List Byte) (s : State) : Host.Outcome State Fault Refusal :=
  .next (request 0x22#8 1 parseByte id l corr p (closeBatchAct l corr) s)

/-- DEFERRED_CLOSE of a route (R111): a close pending on a buffer that is FREE is performed, or waits for a wrap in flight.
An acknowledgement that frees the buffer carries this out in its own event (R130; DEDUCED, log 14). -/
def execDeferredClose (r : RouteNo) (s : State) : Host.Outcome State Fault Refusal :=
  .next (if s.awake then s.settleDeferred r else s)

end Sys2Proof.Machine
end

