-- ==== Sys2Proof/Machine/Links.lean ====
section
/-! DEFINITION. Link events: LINK RESET, bad frames, breaks, unknown kinds (09_links_and_message_framing.md), and the
abandonment of a setup sequence (R166), which a reset of the service port brings about. -/

namespace Sys2Proof.Machine

/-! ### Abandonment of a setup sequence (R166) -/

/-- Part state to which an abandoned sequence returns (R166). -/
def PriorState.part : PriorState → PartState
  | .blank => .blank
  | .running => .running

/-- The Status and Setup Unit with its open sequence abandoned; unchanged outside SETUP (R166). -/
def StatusUnit.abandoned (u : StatusUnit) : StatusUnit :=
  if u.part = .setup then
    { u with part := (u.prior.map PriorState.part).getD .blank, prior := none, staged := none }
  else u

/-- An open setup sequence abandoned (R166). -/
def State.abandon (s : State) : State := { s with status := s.status.abandoned }

/-! ### The reset of a link (R72, R136, R160) -/

/-- A lane with its intake queue emptied (R72). -/
def Lane.emptied (k : Lane) : Lane := { k with queue := [] }

/-- The answer of a wrap in flight from a lane will be discarded (R72, R95). -/
def Engine.discard : Engine → LaneNo → Engine
  | .busy k w, i => if w.lane = i then .busy k { w with discarded := true } else .busy k w
  | e, _ => e

/-- A route's dispatch state with a stream opened on a link closed, without STREAM_END (R136). -/
def RouteDispatch.closedOn (d : RouteDispatch) (l : LinkId) : RouteDispatch :=
  match d.stream with
  | some st => if st.link = l then { d with stream := none } else d
  | none => d

/-- Every stream opened on a link closed (R136). -/
def closeStreams (ds : Vector RouteDispatch 4) (l : LinkId) : Vector RouteDispatch 4 :=
  Vec.gen fun r => (Vec.get ds r).closedOn l

/-- What the reset of a link does to the blocks that own work tied to it (R160). -/
def State.resetBlocks (s : State) : LinkId → State
  | .lane i =>
    { s with
      intake := { s.intake with lanes := Vec.put s.intake.lanes i (s.lane i).emptied }
      engine := s.engine.discard i }
  | .dispatch => { s with dispatch := closeStreams s.dispatch .dispatch }
  | .service => { s with dispatch := closeStreams s.dispatch .service, status := s.status.abandoned }

/-- The link itself at its reset: response queue emptied, frame being sent cut off, frame being received discarded (R160).
The stream pointer, the line and its rate are kept. DESIGN CHOICE (log 25). -/
def Link.reset (k : Link) (rx : Receiver) : Link := { k with receiver := rx, queue := [], sending := none }

/-- The reset of a link (R160), which leaves its receiver as said. -/
def State.resetLink (s : State) (l : LinkId) (rx : Receiver) : State :=
  let s' := s.resetBlocks l
  s'.setLink l ((s'.link l).reset rx)

/-- LINK RESET (R159): taken on every link and in every part state, even when the response queue is full; its payload may
have any length and is not read (R174), within the link's largest body. Its answer is the only entry of the emptied
queue. DEDUCED (log 12). -/
def execLinkReset (l : LinkId) (corr : Byte) (p : List Byte) (s : State) : Host.Outcome State Fault Refusal :=
  .next (
    if s.awake && (s.link l).receiver != .inBreak then
      if largestBody l < p.length + 2 then
        match frameArrives l (0x0F#8 :: corr :: p) s with
        | .gone s' => s'
        | .taken s' => s'
      else (s.resetLink l .hunting).answer l corr .done
    else s)

/-! ### Bad frames (R151 to R153) -/

/-- FRAME_BAD (R153): the characters received on a link up to the one at which its frame is found bad. The receiver takes
them; a bad frame is answered FRAME_BAD; characters that end no frame are held by the receiver. Characters that complete a
good frame are not this row's and leave the state as it was: such a frame comes as its request's row, which takes up from
the beginning that the receiver holds (DESIGN CHOICE, log 13). -/
def execFrameBad (l : LinkId) (chars : List LineChar) (s : State) : Host.Outcome State Fault Refusal :=
  .next (
    if s.awake then
      match (s.link l).receiver.hearAll (largestBody l) chars with
      | (rx, .bad) => s.setLink l { (s.link l).reportBad with receiver := rx }
      | (rx, .nothing) => s.setLink l { s.link l with receiver := rx }
      | (_, .complete _) => s
    else s)

/-! ### Breaks (R158) -/

/-- BREAK (R158): the line is at its break level; the link is reset and its receiver enters BREAK. Without supply or with
RESET held only the line's level changes. -/
def execLineBreak (l : LinkId) (s : State) : Host.Outcome State Fault Refusal :=
  .next (
    let held := s.setLink l { s.link l with low := true }
    if s.awake && (s.link l).receiver != .inBreak then held.resetLink l .inBreak else held)

/-- A receiver when its line returns to the idle level (R158). -/
def Receiver.released : Receiver → Receiver
  | .inBreak => .hunting
  | rx => rx

/-- BREAK_END (R158): the line returns to its idle level, and a receiver in BREAK enters HUNTING. -/
def execLineBreakEnd (l : LinkId) (s : State) : Host.Outcome State Fault Refusal :=
  .next (s.setLink l { s.link l with low := false, receiver := (s.link l).receiver.released })

/-! ### Unknown kinds (R154) -/

/-- UNKNOWN_KIND (R154): a complete good frame whose kind the part does not take as a request. A kind that it takes is
another row's, and leaves the state as it was (DEDUCED, log 1). -/
def execUnknownKind (l : LinkId) (corr : Byte) (kind : Byte) (p : List Byte) (s : State) :
    Host.Outcome State Fault Refusal :=
  .next (
    if requestKinds.contains kind then s
    else
      match frameArrives l (kind :: corr :: p) s with
      | .gone s' => s'
      | .taken s' => s'.answer l corr .unknownKind)

end Sys2Proof.Machine
end

