-- ==== Sys2Proof/Machine/RouteCommands.lean ====
section
/-! DEFINITION. The route commands, the transmitter events and the acknowledgement timer's expiry
(07_dispatch_and_acknowledgement.md), SET CEILING (R46) and ROUTE QUERY (R170). -/

namespace Sys2Proof.Machine

/-! ### Checks of the route commands -/

/-- The checks of R116, in order: RUNNING, a route number 0 to 3, a defined route. -/
def onRoute (l : LinkId) (corr : Byte) (b : Byte) (act : RouteNo → RouteConfig → State → State) (s : State) : State :=
  if s.status.part = .running then
    match indexOf 4 b with
    | none => s.answer l corr .badParameter
    | some r =>
      match s.config r with
      | none => s.answer l corr .routeUndefined
      | some c => act r c s
  else s.answer l corr .notRunning

/-- A route command whose payload is its route number alone (R116, R174). -/
def routeCommand (kind : Byte) (l : LinkId) (corr : Byte) (p : List Byte) (act : RouteNo → RouteConfig → State → State)
    (s : State) : State :=
  request kind 1 parseByte id l corr p (fun b => onRoute l corr b act) s

/-! ### Up and down (R117, R118) -/

/-- The dispatch state of a DOWN route brought UP (R117). -/
def RouteDispatch.broughtUp (d : RouteDispatch) (c : RouteConfig) : RouteDispatch :=
  { d with state := .up, e := c.init, tag := 0 }

/-- ROUTE UP on a route (R117). -/
def routeUpAct (l : LinkId) (corr : Byte) (r : RouteNo) (c : RouteConfig) (s : State) : State :=
  let s' := if (s.route r).state = .up then s else s.setRoute r ((s.route r).broughtUp c)
  s'.answer l corr .done

/-- ROUTE DOWN on a route (R118). -/
def routeDownAct (l : LinkId) (corr : Byte) (r : RouteNo) (_c : RouteConfig) (s : State) : State :=
  let s' :=
    if (s.route r).state = .up then s.takeDown r .command .routeDown
    else s.setRoute r { s.route r with state := .down .command }
  s'.answer l corr .done

/-- ROUTE UP (R117). -/
def execRouteUp (l : LinkId) (corr : Byte) (p : List Byte) (s : State) : Host.Outcome State Fault Refusal :=
  .next (routeCommand 0x17#8 l corr p (routeUpAct l corr) s)

/-- ROUTE DOWN (R118). -/
def execRouteDown (l : LinkId) (corr : Byte) (p : List Byte) (s : State) : Host.Outcome State Fault Refusal :=
  .next (routeCommand 0x18#8 l corr p (routeDownAct l corr) s)

/-! ### Pulls (R122, R123) -/

/-- PULL ONE on a route (R122). -/
def pullOneAct (l : LinkId) (corr : Byte) (r : RouteNo) (c : RouteConfig) (s : State) : State :=
  if (s.route r).state = .up then
    if s.windowOpen r c then
      match s.offer r c corr with
      | none => s.answer l corr .empty
      | some (s', m) => s'.send l m
    else s.answer l corr .windowFull
  else s.answer l corr .routeDown

/-- PULL ONE (R122). -/
def execPullOne (l : LinkId) (corr : Byte) (p : List Byte) (s : State) : Host.Outcome State Fault Refusal :=
  .next (routeCommand 0x10#8 l corr p (pullOneAct l corr) s)

/-- The count of a PULL BLOCK: 0 is taken as 1, a count above 32 as 32 (R123). -/
def blockCount (n : Nat) : Nat := min (max n 1) 32

/-- The run of frames followed by BLOCK_END, as one entry of the response queue (R123, R156). -/
def blockEntry (frames : List Message) (last : Message) : QueueEntry :=
  match frames with
  | [] => .run last []
  | m :: ms => .run m (ms ++ [last])

/-- PULL BLOCK on a route (R123). -/
def pullBlockAct (l : LinkId) (corr : Byte) (n : Byte) (r : RouteNo) (c : RouteConfig) (s : State) : State :=
  if (s.route r).state = .up then
    let run := State.offerRun r c corr (blockCount n.toNat) s
    run.state.enqueue l (blockEntry run.frames (.blockEnd corr r run.frames.length run.cause))
  else s.answer l corr .routeDown

/-- PULL BLOCK (R123). -/
def execPullBlock (l : LinkId) (corr : Byte) (p : List Byte) (s : State) : Host.Outcome State Fault Refusal :=
  .next (request 0x11#8 1 parseTwo id l corr p (fun b => onRoute l corr b.1 (pullBlockAct l corr b.2)) s)

/-! ### Streams (R124) -/

/-- The count of a STREAM OPEN: 0 is taken as 1 (R124). -/
def streamCount (n : Nat) : Nat := max n 1

/-- STREAM OPEN on a route (R124). -/
def streamOpenAct (l : LinkId) (corr : Byte) (n renew : Byte) (r : RouteNo) (_c : RouteConfig) (s : State) : State :=
  match flagOf renew with
  | none => s.answer l corr .badParameter
  | some again =>
    if (s.route r).state = .up then
      let n := streamCount n.toNat
      (s.setRoute r { s.route r with stream := some ⟨n, n, again, l, corr⟩ }).answer l corr .done
    else s.answer l corr .routeDown

/-- STREAM OPEN (R124). -/
def execStreamOpen (l : LinkId) (corr : Byte) (p : List Byte) (s : State) : Host.Outcome State Fault Refusal :=
  .next (request 0x12#8 1 parseThree id l corr p (fun b => onRoute l corr b.1 (streamOpenAct l corr b.2.1 b.2.2)) s)

/-- STREAM CLOSE on a route (R124). -/
def streamCloseAct (l : LinkId) (corr : Byte) (r : RouteNo) (_c : RouteConfig) (s : State) : State :=
  (s.setRoute r { s.route r with stream := none }).answer l corr .done

/-- STREAM CLOSE (R124). -/
def execStreamClose (l : LinkId) (corr : Byte) (p : List Byte) (s : State) : Host.Outcome State Fault Refusal :=
  .next (routeCommand 0x13#8 l corr p (streamCloseAct l corr) s)

/-! ### Acknowledgements (R127 to R129) -/

/-- ACK ONE on a route (R127). -/
def ackOneAct (l : LinkId) (corr : Byte) (batch sq : Nat) (r : RouteNo) (c : RouteConfig) (s : State) : State :=
  if s.isOffered r ⟨r, batch, sq⟩ then (s.acknowledge r c ⟨r, batch, sq⟩).answer l corr .done (.acked 1)
  else s.answer l corr .notOffered

/-- ACK ONE (R127). -/
def execAckOne (l : LinkId) (corr : Byte) (p : List Byte) (s : State) : Host.Outcome State Fault Refusal :=
  .next (request 0x14#8 1 parseAck id l corr p (fun b => onRoute l corr b.1 (ackOneAct l corr b.2.1 b.2.2)) s)

/-- ACK OLDEST on a route (R128). -/
def ackOldestAct (l : LinkId) (corr : Byte) (r : RouteNo) (c : RouteConfig) (s : State) : State :=
  match (s.route r).offered with
  | [] => s.answer l corr .notOffered
  | id :: _ => (s.acknowledge r c id).answer l corr .done (.ackedOldest 1 id)

/-- ACK OLDEST (R128). -/
def execAckOldest (l : LinkId) (corr : Byte) (p : List Byte) (s : State) : Host.Outcome State Fault Refusal :=
  .next (routeCommand 0x15#8 l corr p (ackOldestAct l corr) s)

/-- ACK THROUGH on a route (R129). DEDUCED (log 21). -/
def ackThroughAct (l : LinkId) (corr : Byte) (batch sq : Nat) (r : RouteNo) (c : RouteConfig) (s : State) : State :=
  let ids := s.covered r batch sq
  (s.acknowledgeAll r c ids).answer l corr .done (.acked ids.length)

/-- ACK THROUGH (R129). -/
def execAckThrough (l : LinkId) (corr : Byte) (p : List Byte) (s : State) : Host.Outcome State Fault Refusal :=
  .next (request 0x16#8 1 parseAck id l corr p (fun b => onRoute l corr b.1 (ackThroughAct l corr b.2.1 b.2.2)) s)

/-! ### Events of the controller and of the transmitters -/

/-- The transmitter of a link, idle, chooses a ready stream (R125, R126): nothing where the transmitter is busy, where the
front of its response queue is a message, or where no stream is ready. -/
def execStreamOffer (l : LinkId) (s : State) : Host.Outcome State Fault Refusal :=
  .next (
    if s.awake && (s.link l).sending.isNone && (s.link l).takeMessage.isNone then s.nextMessage l else s)

/-- A link's transmitter finishes its message, or is idle when a message is available, and the arbiter takes the next
(R126). DESIGN CHOICE (log 26). DEDUCED (log 5). -/
def execTransmitComplete (l : LinkId) (s : State) : Host.Outcome State Fault Refusal :=
  .next (if s.awake then (s.setLink l { s.link l with sending := none }).nextMessage l else s)

/-- A timer has counted to 0 (R131, R132). -/
def AckTimer.expired : AckTimer → Bool
  | .running 0 => true
  | _ => false

/-- The route whose timer expires next: timers that have counted to 0 expire in route order (R132). -/
def State.expiringRoute (s : State) : Option RouteNo := (List.finRange 4).find? fun r => (s.route r).timer.expired

/-- The acknowledgement timer of a route expires: the route goes DOWN with reason TIMEOUT, ACK_TIMEOUT is raised and logged
(R132). Nothing while its timer has not counted to 0, nor while that of a route before it waits to expire. -/
def execAckTimerExpiry (r : RouteNo) (s : State) : Host.Outcome State Fault Refusal :=
  .next (
    if s.awake && s.expiringRoute == some r then
      ((s.takeDown r .timeout .timeout).raise .ackTimeout).logFault .ackTimeout r.val
    else s)

/-! ### SET CEILING (R46) -/

/-- The checks of SET CEILING, which answer before it writes (R46). -/
def setCeilingAct (l : LinkId) (corr : Byte) (b : Byte) (digits : List Byte) (s : State) : State :=
  if s.status.part = .running then
    match indexOf 4 b, packedOf digits with
    | some r, some v =>
      if s.defined r then (s.setAccount r { s.account r with pending := v }).answer l corr .done
      else s.answer l corr .routeUndefined
    | _, _ => s.answer l corr .badParameter
  else s.answer l corr .notRunning

/-- SET CEILING (R46). -/
def execSetCeiling (l : LinkId) (corr : Byte) (p : List Byte) (s : State) : Host.Outcome State Fault Refusal :=
  .next (request 0x24#8 1 parsePacked id l corr p (fun b => setCeilingAct l corr b.1 b.2) s)

/-! ### ROUTE QUERY (R170) -/

/-- The Queue Manager's values of a route (R100). -/
def State.queueReport (s : State) (r : RouteNo) : QueueReport :=
  let q := s.queue r
  { batch := q.batch
    nextSeq := q.nextSeq
    opened := q.opened
    liveUsed := q.live.occupancy
    storeUsed := q.store.occupancy
    liveRoom := s.liveRoom r
    ringRoom := s.ringRoom r
    storeRoom := s.storeRoom r
    overflow := q.overflow.length
    poolFree := s.qm.poolFree.length
    buffer := q.buffer.map (·.state)
    pending := q.pending.map fun p => (p.reason, p.wait)
    full := q.full
    nPending := s.countIn r .pending
    nOffered := s.countIn r .offered
    nAcked := s.countIn r .acked }

/-- The dispatch state ROUTE QUERY reports (R115, R170). -/
def RouteDispatch.report (d : RouteDispatch) : DispatchReport :=
  ⟨d.state, d.e, d.tag, d.timer, d.stream, d.offered.length, d.offered.head?⟩

/-- What ROUTE QUERY reports of a route (R170). -/
def State.routeReport (s : State) (r : RouteNo) (c : RouteConfig) : RouteReport :=
  { config := c
    queue := s.queueReport r
    account := s.account r
    dispatch := (s.route r).report
    ringLow := s.ringLow r
    clock := s.time
    unset := s.cutover.unset }

/-- ROUTE QUERY on a route number (R170). -/
def routeQueryAct (l : LinkId) (corr : Byte) (b : Byte) (s : State) : State :=
  match indexOf 4 b with
  | none => s.answer l corr .badParameter
  | some r =>
    match s.config r with
    | none => s.answer l corr .routeUndefined
    | some c => s.answer l corr .done (.route (s.routeReport r c))

/-- ROUTE QUERY (R170). -/
def execRouteQuery (l : LinkId) (corr : Byte) (p : List Byte) (s : State) : Host.Outcome State Fault Refusal :=
  .next (request 0x29#8 1 parseByte id l corr p (routeQueryAct l corr) s)

end Sys2Proof.Machine
end

