-- ==== Sys2Proof/Machine/Setup.lean ====
section
/-! DEFINITION. The Status and Setup Unit's commands: the setup sequence, STATUS READ, FAULT READ and ERASE
(10_setup_status_and_retention.md). -/

namespace Sys2Proof.Machine

/-! ### Answers to queued requests (R71) -/

/-- The NOT_RUNNING answers to a lane's queued requests, in queue order (R71). -/
def queuedAnswers (k : Lane) : List Message := k.queue.map fun q => .answer q.corr .notRunning .bare

/-- Messages added to the response queues of the lanes. -/
def answerLanes (links : Vector Link 6) (f : LaneNo → List Message) : Vector Link 6 :=
  Vec.gen fun j =>
    if h : j.val < 4 then (Vec.get links j).pushAll (f ⟨j.val, h⟩) else Vec.get links j

/-- Every intake queue emptied; holds and rotation pointer kept (R71). -/
def Intake.emptied (k : Intake) : Intake := { k with lanes := Vec.gen fun i => (Vec.get k.lanes i).emptied }

/-! ### SETUP BEGIN (R163) -/

/-- A route is empty for SETUP BEGIN: it holds no record, its buffer is FREE, no close is pending, its next sequence is 1
(R98, R163 check 3). -/
def RouteQueue.idle (q : RouteQueue) : Bool :=
  q.live.occupancy == 0 && q.store.occupancy == 0 && q.overflow.isEmpty && q.buffer.isNone && q.pending.isNone &&
    q.nextSeq == 1

/-- Check 3 of R163 for a part that is RUNNING. -/
def State.nothingInTransit (s : State) : Bool :=
  ((List.finRange 4).all fun r => !s.defined r || (s.queue r).idle) && s.engine.isIdle && s.cutover.stage == .idle

/-- The state from which a sequence is opened (R162). -/
def PartState.prior : PartState → PriorState
  | .running => .running
  | _ => .blank

/-- The allow flags of routes 0 to n − 1 (R163, R174). -/
def allowFlags (n : Nat) (b : Byte) : List Bool := (List.range n).map fun i => b.getLsbD i

/-- The Status and Setup Unit with a sequence opened (R163). -/
def StatusUnit.opened (u : StatusUnit) (n : Nat) (flags : Byte) (nearDue : Bool) : StatusUnit :=
  { u.raiseIf nearDue .cutoverNear with
    part := .setup
    prior := some u.part.prior
    staged := some ⟨n, allowFlags n flags, []⟩ }

/-- The effect of a SETUP BEGIN that passes (R163). DEDUCED (log 29). -/
def State.openSetup (s : State) (n : Nat) (flags : Byte) : State :=
  { s with
    status := s.status.opened n flags s.cutover.nearDue
    cutover := { s.cutover.withoutNear with matchDue := none }
    links := answerLanes s.links fun i => queuedAnswers (s.lane i)
    intake := s.intake.emptied }

/-- SETUP BEGIN with its checks (R163). -/
def setupBeginAct (l : LinkId) (corr : Byte) (b : Byte × Byte) (s : State) : State :=
  if s.status.part = .setup then s.abandon.answer l corr .sequenceBroken
  else
    match byteIn 1 4 b.1 with
    | none => s.answer l corr .badParameter
    | some n =>
      if s.status.part = .running ∧ s.nothingInTransit = false then s.answer l corr .notEmpty
      else (s.openSetup n b.2).answer l corr .done

/-- SETUP BEGIN (R163); in SETUP a payload of another length abandons the sequence too (R166). -/
def execSetupBegin (l : LinkId) (corr : Byte) (p : List Byte) (s : State) : Host.Outcome State Fault Refusal :=
  .next (request 0x42#8 0 parseTwo State.abandon l corr p (setupBeginAct l corr) s)

/-! ### ROUTE DEFINE (R164) -/

/-- The route a staged configuration expects; none when it expects SETUP END (R162). -/
def Staged.expects (g : Staged) : Option Nat := if g.routes.length < g.count then some g.routes.length else none

/-- The staged configuration with a route added. -/
def Staged.add (g : Staged) (c : RouteConfig) : Staged := { g with routes := g.routes ++ [c] }

/-- The allow flag of the route a staged configuration expects. -/
def Staged.nextAllow (g : Staged) : Bool := (g.allow[g.routes.length]?).getD false

/-- ROUTE DEFINE against an open sequence (R164). -/
def routeDefineStaged (l : LinkId) (corr : Byte) (b : DefineBytes) (g : Staged) (s : State) : State :=
  if g.expects = some b.route.toNat then
    match b.config g.nextAllow with
    | none => s.abandon.answer l corr .badParameter
    | some c =>
      State.answer { s with status := { s.status with staged := some (g.add c) } } l corr .done (.staged c.highWater)
  else s.abandon.answer l corr .sequenceBroken

/-- ROUTE DEFINE with its checks (R164). -/
def routeDefineAct (l : LinkId) (corr : Byte) (b : DefineBytes) (s : State) : State :=
  if s.status.part = .setup then
    match s.status.staged with
    | some g => routeDefineStaged l corr b g s
    | none => s.abandon.answer l corr .sequenceBroken
  else s.answer l corr .sequenceBroken

/-- ROUTE DEFINE (R164); in SETUP a payload of another length abandons the sequence too (R166). -/
def execRouteDefine (l : LinkId) (corr : Byte) (p : List Byte) (s : State) : Host.Outcome State Fault Refusal :=
  .next (request 0x43#8 0 parseDefine State.abandon l corr p (routeDefineAct l corr) s)

/-! ### SETUP END (R165) -/

/-- The configuration a staged one brings into force. -/
def Staged.config (g : Staged) : Vector (Option RouteConfig) 4 := Vec.gen fun r => g.routes[r.val]?

/-- The layout fits (R165 check 2). -/
def Staged.fits (g : Staged) : Bool := decide (poolStart g.config ≤ Config.storeSlots)

/-- A route's queue state at SETUP END: a kept route keeps its batch and its opened time; a new route, and one no longer
defined, takes the values of the table (R98). DEDUCED (log 20). -/
def queueAtSetup (old new_ : Option RouteConfig) (q : RouteQueue) (now : ClockTime) : RouteQueue :=
  match old, new_ with
  | some _, some _ => { RouteQueue.fresh q.opened with batch := q.batch }
  | none, none => q
  | _, _ => RouteQueue.fresh now

/-- A route's account at SETUP END (R46, R57). -/
def accountAtSetup : Option RouteConfig → RouteAccount
  | some c => ⟨Totals.zero, 0, false, c.ceiling, c.ceiling⟩
  | none => RouteAccount.empty

/-- A route's dispatch state at SETUP END (R115, R134). -/
def dispatchAtSetup : Option RouteConfig → RouteDispatch
  | some c => ⟨.down .start, c.init, [], 0, .stopped, none⟩
  | none => RouteDispatch.absent

/-- A terminal entry at SETUP END: on a route that is no longer defined, an ACTIVE entry becomes HELD and the history list
of an ACTIVE or HELD entry is emptied (R19). DEDUCED (log 31). -/
def Terminal.atSetup (e : Terminal) (old new_ : Vector (Option RouteConfig) 4) : Terminal :=
  if (Vec.get old e.route).isSome ∧ Vec.get new_ e.route = none then
    match e.state with
    | .active => { e with state := .held, history := [] }
    | _ => { e with history := [] }
  else e

/-- The Status and Setup Unit with a configuration brought into force (R165). -/
def StatusUnit.inForce (u : StatusUnit) (config : Vector (Option RouteConfig) 4) : StatusUnit :=
  { u with config := config, part := .running, prior := none, staged := none }

/-- The staged configuration brought into force (R165). -/
def State.install (s : State) (g : Staged) : State :=
  let new_ := g.config
  { s with
    status := s.status.inForce new_
    qm :=
      { slots := []
        poolFree := poolSlots new_
        queues := Vec.gen fun r => queueAtSetup (s.config r) (Vec.get new_ r) (s.queue r) s.time }
    accounts := Vec.gen fun r => accountAtSetup (Vec.get new_ r)
    dispatch := Vec.gen fun r => dispatchAtSetup (Vec.get new_ r)
    terminals := Vec.gen fun t => (s.term t).atSetup s.status.config new_ }

/-- SETUP END with its checks (R165). -/
def setupEndAct (l : LinkId) (corr : Byte) (s : State) : State :=
  if s.status.part = .setup then
    match s.status.staged with
    | some g =>
      if g.expects = none then
        if g.fits then (s.install g).answer l corr .done
        else s.abandon.answer l corr .layoutTooLarge
      else s.abandon.answer l corr .sequenceBroken
    | none => s.abandon.answer l corr .sequenceBroken
  else s.answer l corr .sequenceBroken

/-- SETUP END (R165); in SETUP a payload of another length abandons the sequence too (R166). -/
def execSetupEnd (l : LinkId) (corr : Byte) (p : List Byte) (s : State) : Host.Outcome State Fault Refusal :=
  .next (request 0x44#8 0 parseNone State.abandon l corr p (fun _ => setupEndAct l corr) s)

/-! ### STATUS READ (R168) -/

/-- A defined route's block of the status reply (R168). -/
def State.routeStatus (s : State) (r : RouteNo) : RouteStatus :=
  let q := s.queue r
  { state := (s.route r).state
    batch := q.batch
    nextSeq := q.nextSeq
    nPending := s.countIn r .pending
    nOffered := s.countIn r .offered
    nAcked := s.countIn r .acked
    storeRoom := s.storeRoom r
    ringLow := s.ringLow r
    buffer := q.buffer.map (·.state)
    reason := q.pending.map (·.reason)
    full := q.full
    overflow := (s.account r).overflow }

/-- What STATUS READ reports (R168). -/
def State.statusReport (s : State) : StatusReport :=
  { flags := s.status.flags
    enables := s.status.enables
    part := s.status.part
    prior := s.status.prior
    position := s.status.staged.map fun g => (g.expects).getD 4
    clock := s.time
    unset := s.cutover.unset
    setting := s.cutover.setting
    stage := s.cutover.stage
    matchTime := s.cutover.matchTime
    nextRoute := s.cutover.nextRoute
    nextFamily := s.cutover.nextFamily
    near := s.cutover.near
    logged := s.status.log.length
    overrun := s.status.overrun
    lane := s.engine.lane
    routes := (List.finRange 4).map fun r => if s.defined r then some (s.routeStatus r) else none }

/-- The Status and Setup Unit with the enables of a list, when there is one (R168 step 1). -/
def StatusUnit.enabling (u : StatusUnit) (list : Option (BitVec 11)) : StatusUnit :=
  { u with enables := list.getD u.enables }

/-- STATUS READ: enables, reply, then every flag that the reply shows set is cleared (R168). -/
def statusReadAct (l : LinkId) (corr : Byte) (list : Option (BitVec 11)) (s : State) : State :=
  let s1 := { s with status := s.status.enabling list }
  State.answer { s1 with status := { s1.status with flags := 0#11 } } l corr .done (.status s1.statusReport)

/-- STATUS READ (R168). -/
def execStatusRead (l : LinkId) (corr : Byte) (p : List Byte) (s : State) : Host.Outcome State Fault Refusal :=
  .next (request 0x27#8 1 parseEnables id l corr p (statusReadAct l corr) s)

/-! ### FAULT READ (R169) -/

/-- The Status and Setup Unit after a FAULT READ: the oldest entry removed, the overrun mark cleared when the log is then
empty (R169). -/
def StatusUnit.faultTaken (u : StatusUnit) : StatusUnit :=
  { u with log := u.log.tail, overrun := u.overrun && !u.log.tail.isEmpty }

/-- FAULT READ (R169). -/
def faultReadAct (l : LinkId) (corr : Byte) (s : State) : State :=
  let s' := { s with status := s.status.faultTaken }
  match s.status.log with
  | [] => s'.answer l corr .empty (.noFault s.status.overrun)
  | entry :: rest => s'.answer l corr .done (.fault entry rest.length s.status.overrun)

/-- FAULT READ (R169). -/
def execFaultRead (l : LinkId) (corr : Byte) (p : List Byte) (s : State) : Host.Outcome State Fault Refusal :=
  .next (request 0x28#8 1 parseNone id l corr p (fun _ => faultReadAct l corr) s)

/-! ### ERASE (R173) -/

/-- A response queue entry is an empty place (R156). -/
def QueueEntry.isPlace : QueueEntry → Bool
  | .place _ _ => true
  | .run _ _ => false

/-- A link with the empty places of its response queue removed (R38). -/
def Link.withoutPlaces (k : Link) : Link := { k with queue := k.queue.filter fun e => !e.isPlace }

/-- The NOT_RUNNING answer to a wrap in flight from a lane, unless its answer is discarded (R95). -/
def Engine.eraseAnswers : Engine → LaneNo → List Message
  | .busy _ w, i => if w.lane = i ∧ w.discarded = false then [.answer w.corr .notRunning .bare] else []
  | _, _ => []

/-- The answers an ERASE owes a lane: its wrap in flight, then its queued requests (R71, R95; DESIGN CHOICE, log 17). -/
def State.eraseAnswers (s : State) (i : LaneNo) : List Message := s.engine.eraseAnswers i ++ queuedAnswers (s.lane i)

/-- The state after an ERASE, before its own answer (R173). DEDUCED (log 18). -/
def State.erased (s : State) : State :=
  { s with
    valid := true
    status := StatusUnit.blank
    links := answerLanes (Vec.gen fun j => (Vec.get s.links j).withoutPlaces) s.eraseAnswers
    intake := Intake.start
    engine := .idle
    terminals := Vector.replicate 64 Terminal.vacant
    keys := KeyUnit.empty
    accounts := Vector.replicate 4 RouteAccount.empty
    qm := QueueManager.empty
    dispatch := Vector.replicate 4 RouteDispatch.absent
    cutover := CutoverUnit.initial }

/-- ERASE, taken in every part state (R173). -/
def eraseAct (l : LinkId) (corr : Byte) (s : State) : State := s.erased.answer l corr .done

/-- ERASE (R173). -/
def execErase (l : LinkId) (corr : Byte) (p : List Byte) (s : State) : Host.Outcome State Fault Refusal :=
  .next (request 0x45#8 0 parseNone id l corr p (fun _ => eraseAct l corr) s)

end Sys2Proof.Machine
end

