-- ==== Sys2Proof/Machine/Power.lean ====
section
/-! DEFINITION. Supply, RESET line and retention: POWER_LOSS, RETENTION_LOSS, RESET_LINE, WARM_RESTORE and STORE_LOST
(10_setup_status_and_retention.md, and the sections on values after reset of each block). -/

namespace Sys2Proof.Machine

/-! ### Start values (R73, R135, R161) -/

/-- A link's receiver at its start: BREAK while its line is held at the break level (R161). -/
def startReceiver (low : Bool) : Receiver := if low then .inBreak else .hunting

/-- A link at its start, with its line as it is and a line rate (R161). -/
def Link.restart (k : Link) (fast : Bool) : Link := ⟨startReceiver k.low, k.low, fast, [], none, 3⟩

/-- Every link at its start with the line rates the straps give (R150, R161). DESIGN CHOICE (log 8). -/
def startLinks (links : Vector Link 6) (straps : BitVec 6) : Vector Link 6 :=
  Vec.gen fun j => (Vec.get links j).restart (straps.getLsbD j.val)

/-- A route's dispatch state after a warm restore (R135). -/
def dispatchAtRestore : Option RouteConfig → RouteDispatch
  | some c => ⟨.down .restore, c.init, [], 0, .stopped, none⟩
  | none => RouteDispatch.absent

/-! ### What is not retained (R171) -/

/-- The Wrap Engine without its working fields (R75). -/
def Engine.lapse : Engine → Engine
  | .busy k _ => .cut k
  | e => e

/-- The Status and Setup Unit without what is not retained (R162, R167, R169). -/
def StatusUnit.lapse (u : StatusUnit) : StatusUnit :=
  { u with staged := none, flags := 0#11, log := [], overrun := false }

/-- The Cut-over Unit without what is not retained: its fields, the near warning among them, are retained (R142, R171);
the marks of what a tick has made due are the model's own (DESIGN CHOICE, log 3). -/
def CutoverUnit.lapse (u : CutoverUnit) : CutoverUnit := { u with nearDue := false, matchDue := none }

/-- The part with everything that is not retained at its start value: what loss of supply leaves (R171, DEDUCED, log 9). -/
def State.lapse (s : State) : State :=
  { s with
    status := s.status.lapse
    links := Vec.gen fun j => (Vec.get s.links j).restart (Vec.get s.links j).fast
    intake := Intake.start
    engine := s.engine.lapse
    keys := { s.keys with loads := Vector.replicate 8 none }
    dispatch := Vector.replicate 4 RouteDispatch.absent
    cutover := s.cutover.lapse }

/-! ### The warm restore, in the order of R172 -/

/-- Step 1: RESTORED raised, an open setup sequence abandoned (R166, R172). -/
def State.restoreStatus (s : State) : State := { s with status := s.status.abandoned.raise .restored }

/-- The reserved pool slot of an abandoned wrap goes to the back of the free list (R94, R97). -/
def Engine.releasedSlots : Engine → List Nat
  | .cut ⟨_, _, .pool n, _⟩ => [n]
  | .busy ⟨_, _, .pool n, _⟩ _ => [n]
  | _ => []

/-- Step 2 and step 3's release: the wrap in flight abandoned (R94, R113). -/
def State.abandonWrap (s : State) : State :=
  { s with engine := .idle, qm := { s.qm with poolFree := s.qm.poolFree ++ s.engine.releasedSlots } }

/-- Step 3: every route rewound (R113). -/
def State.rewindAll (s : State) : State := (List.finRange 4).foldl (fun s r => s.rewind r) s

/-- Step 3: every close pending on the abandoned wrap performed (R113). -/
def State.settleAll (s : State) : State := (List.finRange 4).foldl (fun s r => s.settleWaiting r) s

/-- A family's load or roll undone; a cut-over roll is logged ROLL_LOST and counted as done (R37, R147). -/
def State.undoFamily (s : State) (f : FamilyNo) : State :=
  let k := s.family f
  match k.op with
  | .none => s
  | .cutoverRoll =>
    let s' := (s.setFamily f k.undone).logFault .rollLost f.val
    { s' with cutover := { s'.cutover with nextFamily := familyAfter f } }
  | _ => s.setFamily f k.undone

/-- Step 4: every load and roll undone (R37). -/
def State.undoAll (s : State) : State := (List.finRange 8).foldl (fun s f => s.undoFamily f) s

/-- Step 5: the Dispatch Controller's values after a restore; intake and links have theirs (R135). -/
def State.restoreDispatch (s : State) : State :=
  { s with dispatch := Vec.gen fun r => dispatchAtRestore (s.config r) }

/-- The routes asked in turn from a route on (R147). -/
def State.askFrom (s : State) (r : RouteNo) : State :=
  ((List.finRange 4).filter fun q => decide (r ≤ q)).foldl (fun s q => s.askClose q) s

/-- A family's whole turn in a resumed procedure: its roll starts and completes (R145, R147; DEDUCED, log 19). -/
def State.rollWhole (s : State) (f : FamilyNo) : State :=
  let k := s.family f
  if k.now.rollAtCutover then
    if k.now.canRoll then s.finishRoll f else s.logFault .rollRefused f.val
  else s

/-- The families taken in turn from a family on (R147). -/
def State.rollFrom (s : State) (f : FamilyNo) : State :=
  ((List.finRange 8).filter fun g => decide (f ≤ g)).foldl (fun s g => s.rollWhole g) s

/-- The routes still to be asked, asked. -/
def State.resumeClosing (s : State) : State :=
  match s.cutover.nextRoute with
  | some r => s.askFrom r
  | none => s

/-- The families still to be rolled, rolled. -/
def State.resumeRolling (s : State) : State :=
  match s.cutover.nextFamily with
  | some f => s.rollFrom f
  | none => s

/-- The procedure at its end: IDLE, CUTOVER_DONE raised (R145). -/
def State.finishCutover (s : State) : State :=
  { s with
    cutover := { s.cutover with stage := .idle, matchTime := none, nextRoute := none, nextFamily := none }
    status := s.status.raise .cutoverDone }

/-- Step 7: an interrupted procedure resumed and run to IDLE (R147). -/
def State.resume (s : State) : State :=
  match s.cutover.stage with
  | .idle => s
  | .rolling => s.resumeRolling.finishCutover
  | _ => s.resumeClosing.resumeRolling.finishCutover

/-- The warm restore (R172). It ends the near warning, the one retained item it does not keep (R141, R142, R147). -/
def State.warmRestore (s : State) (straps : BitVec 6) : State :=
  let s1 :=
    { s.lapse with supply := .on, links := startLinks s.links straps, cutover := s.cutover.lapse.withoutNear }
  let s3 := s1.restoreStatus.abandonWrap.rewindAll.settleAll
  s3.undoAll.restoreDispatch.releaseAll.resume

/-- Power-up finds a valid mark, or the RESET line is released: a restore is due (R171). DEDUCED (log 9). -/
def State.restoreDue (s : State) : Bool :=
  match s.supply with
  | .off => s.valid
  | _ => true

/-- WARM_RESTORE (R172): nothing at power-up with an invalid mark (R171); with the supply on it is a pulse of the RESET
line (DEDUCED, log 9). -/
def execWarmRestore (straps : BitVec 6) (s : State) : Host.Outcome State Fault Refusal :=
  .next (if s.restoreDue then s.warmRestore straps else s)

/-! ### Lost retention (R173) -/

/-- The part after power-up with lost retention; the commands waiting are kept. -/
def State.lost (s : State) (straps : BitVec 6) : State :=
  { State.reset with pending := s.pending, links := startLinks s.links straps }

/-- STORE_LOST (R173): power-up with an invalid mark; nothing otherwise. -/
def execStoreLost (straps : BitVec 6) (s : State) : Host.Outcome State Fault Refusal :=
  .next (if s.supply = .off ∧ s.valid = false then s.lost straps else s)

/-! ### Pins (R171) -/

/-- RESET_LINE (R171): the RESET line is pulled; from then on the part takes no frame and makes no grant. The level of the
line is not followed while the part has no supply: DESIGN CHOICE (log 33). -/
def execResetLine (s : State) : Host.Outcome State Fault Refusal :=
  .next (if s.supply = .on then { s with supply := .held } else s)

/-- POWER_LOSS (R171): the supply is gone; retention holds the state after the last whole event. DEDUCED
(log 9). A RESET line that is held is forgotten: DESIGN CHOICE (log 33). -/
def execPowerLoss (s : State) : Host.Outcome State Fault Refusal :=
  .next (if s.supply = .off then s else { s.lapse with supply := .off })

/-- RETENTION_LOSS (R171): the validity mark becomes invalid, whether or not the part is powered. DEDUCED (log 28). -/
def execRetentionLoss (s : State) : Host.Outcome State Fault Refusal := .next { s with valid := false }

end Sys2Proof.Machine
end

