-- ==== Sys2Proof/Machine/Terminals.lean ====
section
/-! DEFINITION. The terminal management commands (01_terminal_table.md). -/

namespace Sys2Proof.Machine

/-- Checks 1 to 3 of R3: RUNNING, a terminal number 0 to 63, fields in range (`fields`). -/
def onTerminal {α : Type} (l : LinkId) (corr : Byte) (b : Byte) (fields : Option α)
    (act : TerminalNo → α → State → State) (s : State) : State :=
  if s.status.part = .running then
    match indexOf 64 b with
    | none => s.answer l corr .terminalRange
    | some t =>
      match fields with
      | none => s.answer l corr .badParameter
      | some a => act t a s
  else s.answer l corr .notRunning

/-- A terminal command whose payload is its terminal number alone (R3, R174). -/
def terminalCommand (kind : Byte) (l : LinkId) (corr : Byte) (p : List Byte) (act : TerminalNo → State → State) (s : State) :
    State :=
  request kind 1 parseByte id l corr p (fun b => onTerminal l corr b (some ()) (fun t _ => act t)) s

/-- A command on an entry that must be ACTIVE or HELD: a VACANT entry is refused TERMINAL_VACANT, a CLOSING one
TERMINAL_CLOSING (R5, R6, R8 to R10). -/
def onEnrolled (l : LinkId) (corr : Byte) (t : TerminalNo) (act : State → State) (s : State) : State :=
  match (s.term t).state with
  | .vacant => s.answer l corr .terminalVacant
  | .closing => s.answer l corr .terminalClosing
  | .active => act s
  | .held => act s

/-! ### ENROL (R4) -/

/-- The entry ENROL makes (R4). -/
def Place.enrolled (p : Place) (floor : Nat) : Terminal :=
  ⟨.active, p.lane, p.route, p.family, p.fraction, floor, [], Totals.zero⟩

/-- ENROL's own checks and effect (R4). -/
def enrolAct (l : LinkId) (corr : Byte) (t : TerminalNo) (a : Place × Nat) (s : State) : State :=
  match (s.term t).state with
  | .active => s.answer l corr .terminalBusy
  | .held => s.answer l corr .terminalBusy
  | .closing => s.answer l corr .terminalClosing
  | .vacant =>
    if s.defined a.1.route then
      if (s.family a.1.family).now.state = .empty then s.answer l corr .keyUnavailable
      else (s.setTerm t (a.1.enrolled a.2)).answer l corr .done
    else s.answer l corr .routeUndefined

/-- ENROL's fields: a place and a floor limit, both in range (R3). -/
def enrolFields (b : PlaceBytes) (floor : List Byte) : Option (Place × Nat) :=
  match b.place, packedOf floor with
  | some p, some v => some (p, v)
  | _, _ => none

/-- ENROL (R4). -/
def execEnrol (l : LinkId) (corr : Byte) (p : List Byte) (s : State) : Host.Outcome State Fault Refusal :=
  .next (request 0x30#8 1 parseEnrol id l corr p
    (fun b => onTerminal l corr b.1.terminal (enrolFields b.1 b.2) (enrolAct l corr)) s)

/-! ### HOLD TERMINAL and RELEASE TERMINAL (R5, R6) -/

/-- HOLD TERMINAL (R5). -/
def holdTerminalAct (l : LinkId) (corr : Byte) (t : TerminalNo) (s : State) : State :=
  onEnrolled l corr t (fun s => (s.setTerm t { s.term t with state := .held }).answer l corr .done) s

/-- RELEASE TERMINAL on an ACTIVE or HELD entry (R6). -/
def releaseTerminalEnrolled (l : LinkId) (corr : Byte) (t : TerminalNo) (s : State) : State :=
  if (s.term t).state = .held ∧ s.defined (s.term t).route = false then s.answer l corr .routeUndefined
  else (s.setTerm t { s.term t with state := .active }).answer l corr .done

/-- RELEASE TERMINAL (R6). -/
def releaseTerminalAct (l : LinkId) (corr : Byte) (t : TerminalNo) (s : State) : State :=
  onEnrolled l corr t (releaseTerminalEnrolled l corr t) s

/-- HOLD TERMINAL (R5). -/
def execHoldTerminal (l : LinkId) (corr : Byte) (p : List Byte) (s : State) : Host.Outcome State Fault Refusal :=
  .next (terminalCommand 0x31#8 l corr p (holdTerminalAct l corr) s)

/-- RELEASE TERMINAL (R6). -/
def execReleaseTerminal (l : LinkId) (corr : Byte) (p : List Byte) (s : State) : Host.Outcome State Fault Refusal :=
  .next (terminalCommand 0x32#8 l corr p (releaseTerminalAct l corr) s)

/-! ### MOVE (R8) -/

/-- The entry is quiet: all eight totals zero, nothing PENDING or OFFERED, no wrap in flight (R8 check 2). -/
def quiet (engine : Engine) (t : TerminalNo) (e : Terminal) : Bool :=
  e.totals == Totals.zero && !e.history.any HistoryEntry.outstanding && !engine.servesTerminal t

/-- The entry after a MOVE (R8). -/
def Terminal.movedTo (e : Terminal) (p : Place) : Terminal :=
  { e with lane := p.lane, route := p.route, family := p.family, fraction := p.fraction, history := [] }

/-- MOVE on an ACTIVE or HELD entry (R8 checks 2 to 4). -/
def moveEnrolled (l : LinkId) (corr : Byte) (t : TerminalNo) (p : Place) (s : State) : State :=
  if quiet s.engine t (s.term t) then
    if s.defined p.route then
      if (s.family p.family).now.state = .empty then s.answer l corr .keyUnavailable
      else (s.setTerm t ((s.term t).movedTo p)).answer l corr .done
    else s.answer l corr .routeUndefined
  else s.answer l corr .terminalBusy

/-- MOVE (R8). -/
def moveAct (l : LinkId) (corr : Byte) (t : TerminalNo) (p : Place) (s : State) : State :=
  onEnrolled l corr t (moveEnrolled l corr t p) s

/-- MOVE (R8). -/
def execMove (l : LinkId) (corr : Byte) (p : List Byte) (s : State) : Host.Outcome State Fault Refusal :=
  .next (request 0x33#8 1 parseMove id l corr p (fun b => onTerminal l corr b.terminal b.place (moveAct l corr)) s)

/-! ### RETIRE and SET FLOOR (R9, R10) -/

/-- RETIRE: the entry becomes CLOSING, and VACANT at once where the release test holds (R10, R11). -/
def retireEnrolled (l : LinkId) (corr : Byte) (t : TerminalNo) (s : State) : State :=
  let s' := (s.setTerm t { s.term t with state := .closing }).releaseTest t
  s'.answer l corr .done (.terminalState (s'.term t).state)

/-- RETIRE (R10). -/
def retireAct (l : LinkId) (corr : Byte) (t : TerminalNo) (s : State) : State :=
  onEnrolled l corr t (retireEnrolled l corr t) s

/-- RETIRE (R10). -/
def execRetire (l : LinkId) (corr : Byte) (p : List Byte) (s : State) : Host.Outcome State Fault Refusal :=
  .next (terminalCommand 0x34#8 l corr p (retireAct l corr) s)

/-- SET FLOOR (R9). -/
def setFloorAct (l : LinkId) (corr : Byte) (t : TerminalNo) (floor : Nat) (s : State) : State :=
  onEnrolled l corr t (fun s => (s.setTerm t { s.term t with floor := floor }).answer l corr .done) s

/-- SET FLOOR (R9). -/
def execSetFloor (l : LinkId) (corr : Byte) (p : List Byte) (s : State) : Host.Outcome State Fault Refusal :=
  .next (request 0x35#8 1 parsePacked id l corr p (fun b => onTerminal l corr b.1 (packedOf b.2) (setFloorAct l corr)) s)

/-! ### TERMINAL QUERY (R12) -/

/-- TERMINAL QUERY, accepted in every part state (R12). -/
def terminalQueryAct (l : LinkId) (corr : Byte) (b : Byte) (s : State) : State :=
  match indexOf 64 b with
  | none => s.answer l corr .terminalRange
  | some t => s.answer l corr .done (.terminal (s.term t) (s.engine.servesTerminal t))

/-- TERMINAL QUERY (R12). -/
def execTerminalQuery (l : LinkId) (corr : Byte) (p : List Byte) (s : State) : Host.Outcome State Fault Refusal :=
  .next (request 0x36#8 1 parseByte id l corr p (terminalQueryAct l corr) s)

end Sys2Proof.Machine
end

