-- ==== Sys2Proof/Machine/Wrap.lean ====
section
/-! DEFINITION. The Wrap Engine: GRANT with its checks, reservation and withdrawal, and COMPLETION
(04_intake_and_arbitration.md, 05_the_wrap_operation.md). -/

namespace Sys2Proof.Machine

/-! ### The choice of a head (R65, R66) -/

/-- The head of a lane is urgent. -/
def State.urgentHead (s : State) (i : LaneNo) : Bool :=
  match (s.lane i).queue with
  | q :: _ => q.urgent
  | [] => false

/-- The lane whose head the grant takes: urgent eligible heads before normal ones, then rotation order (R65, R66). -/
def State.grantLane (s : State) : Option LaneNo :=
  let lanes := (rotationFrom s.intake.rotation).filter fun i => s.eligible i
  match lanes.find? fun i => s.urgentHead i with
  | some i => some i
  | none => lanes.head?

/-! ### The grant checks (R76 to R83) -/

/-- What a wrap that passes all eight checks will be. -/
structure WrapPlan where
  kind     : WrapKind
  route    : RouteNo
  cls      : RecordClass
  offline  : Bool
  amount   : Nat
  fraction : Nat
  ref      : Option Reference
  slot     : ReservedSlot
  family   : FamilyNo
deriving DecidableEq, Repr

/-- Outcome of the grant checks (R76). -/
inductive Verdict where
  | refused (code : Code)
  | duplicate (h : HistoryEntry)
  | withdraw (original : HistoryEntry)
  | wrap (plan : WrapPlan)
deriving DecidableEq, Repr

/-- Check 3: the original of a REVERSAL, found and reversible (R78). DESIGN CHOICE (log 22). -/
def findOriginal (history : List HistoryEntry) (till batch : Nat) : Except Code HistoryEntry :=
  match history.find? fun h => h.till == till with
  | none => .error .notFound
  | some h =>
    if h.kind ≠ .auth then .error .notReversible
    else if h.reversed ∨ h.disposition = .voided then .error .alreadyReversed
    else if h.id.batch ≠ batch then .error .stale
    else .ok h

/-- Check 6: class and offline flag (R45, R81). -/
def classOf (kind : WrapKind) (st : DispatchState) (amount floor : Nat) (acc : RouteAccount) :
    Except Code (RecordClass × Bool) :=
  match kind, st with
  | .auth, .up => .ok (.live, false)
  | .auth, .down _ =>
    match offlineRefusal amount floor acc with
    | some code => .error code
    | none => .ok (.store, true)
  | .refund, _ => .ok (.store, false)
  | .reversal, .up => .ok (.live, false)
  | .reversal, .down _ => .ok (.store, false)

/-- Check 7 for a STORE record: the slot by the ordering rule of R101, or none where there is no room (R82). -/
def State.storeSlot (s : State) (r : RouteNo) : Option ReservedSlot :=
  let q := s.queue r
  if q.overflow.isEmpty ∧ 1 ≤ s.ringRoom r then some (.store q.store.bottom)
  else if q.overflow.isEmpty = false ∨ mayPool (s.config r) = true then s.qm.poolFree.head?.map .pool
  else none

/-- Check 7: the slot for a class (R82). -/
def State.roomFor (s : State) (r : RouteNo) (cls : RecordClass) : Except Code ReservedSlot :=
  match cls with
  | .live => if s.liveRoom r = 0 then .error .liveFull else .ok (.live (s.queue r).live.bottom)
  | .store =>
    match s.storeSlot r with
    | some slot => .ok slot
    | none => .error .storeFull

/-- Check 8 (R83). -/
def familyRefusal : FamilyState → Option Code
  | .active => none
  | .low => none
  | .exhausted => some .keyExhausted
  | _ => some .keyUnavailable

/-- Checks 5 to 8 for a request of a kind, with its amount and reference (R80 to R83). -/
def State.laterChecks (s : State) (e : Terminal) (kind : WrapKind) (amount : Nat) (ref : Option Reference) : Verdict :=
  match s.config e.route with
  | none => .refused .routeUndefined
  | some c =>
    if (s.queue e.route).full then .refused .batchFull
    else
      match classOf kind (s.route e.route).state amount e.floor (s.account e.route) with
      | .error code => .refused code
      | .ok (cls, offline) =>
        match s.roomFor e.route cls with
        | .error code => .refused code
        | .ok slot =>
          match familyRefusal (s.family e.family).now.state with
          | some code => .refused code
          | none => .wrap ⟨kind, e.route, cls, offline, amount, c.fraction, ref, slot, e.family⟩

/-- Check 4 and the checks after it for an AUTH or REFUND (R79). Without a defined route there is nothing to normalise to:
the field's form is checked, and check 5 refuses (DESIGN CHOICE, log 22). -/
def State.amountChecks (s : State) (e : Terminal) (kind : WrapKind) (count : Nat) (nibbles : List Nat) : Verdict :=
  match s.config e.route with
  | none =>
    match amountValue count nibbles with
    | none => .refused .amountFormat
    | some _ => .refused .routeUndefined
  | some c =>
    match amountCheck count nibbles e.fraction c with
    | .error code => .refused code
    | .ok a => s.laterChecks e kind a none

/-- Checks 3 to 8 (R78 to R83). -/
def State.itemChecks (s : State) (e : Terminal) : WrapItem → Verdict
  | .auth count nibbles => s.amountChecks e .auth count nibbles
  | .refund count nibbles => s.amountChecks e .refund count nibbles
  | .reversal original =>
    match findOriginal e.history original (s.queue e.route).batch with
    | .error code => .refused code
    | .ok h => if h.disposition = .pending then .withdraw h else s.laterChecks e .reversal h.amount (some ⟨h.id, h.till⟩)

/-- The grant checks, in order (R76, R77). -/
def State.grantChecks (s : State) (q : Request) : Verdict :=
  let e := s.term q.terminal
  match e.state with
  | .vacant => .refused .terminalVacant
  | .held => .refused .terminalHeld
  | .closing => .refused .terminalClosing
  | .active =>
    match e.history.find? fun h => h.till == q.till with
    | some h => .duplicate h
    | none => s.itemChecks e q.item

/-! ### Reservation (R24, R25, R85) -/

/-- A reservation leaves the family at its last position (R25). -/
def FamilyRecord.usesLast (k : FamilyRecord) : Bool := k.counter + 1 == k.ceiling

/-- A reservation takes an ACTIVE family to LOW (R25). -/
def FamilyRecord.entersLow (k : FamilyRecord) : Bool :=
  !k.usesLast && k.state == .active && decide (k.ceiling - (k.counter + 1) ≤ k.low)

/-- The family's record after a reservation (R24, R25). -/
def FamilyRecord.reserve (k : FamilyRecord) : FamilyRecord :=
  { k with
    counter := k.counter + 1
    state := if k.usesLast then .exhausted else if k.entersLow then .low else k.state }

/-- The key reference a reservation takes (R24). -/
def FamilyRecord.keyRef (k : FamilyRecord) (f : FamilyNo) : KeyRef := ⟨f, k.generation, k.epoch, k.counter⟩

/-- A counter reserved of a family, with the events of R25. -/
def State.reserveCounter (s : State) (f : FamilyNo) : State :=
  let k := s.family f
  ((s.setFamily f { k with now := k.now.reserve }).raiseIf k.now.usesLast .keyExhausted).raiseIf k.now.entersLow .keyLow

/-- The pool's free list once a slot of it is reserved (R97). -/
def freeListAfter (free : List Nat) : ReservedSlot → List Nat
  | .pool _ => free.tail
  | _ => free

/-- Card data the cipher core works on: none for a REVERSAL (R26, R75). -/
def WrapKind.cardFor : WrapKind → List Byte → List Byte
  | .reversal, _ => []
  | _, card => card

/-- The retained fields of the reservation record (R75, R85). -/
def State.reservationKept (s : State) (p : WrapPlan) : ReservationKept :=
  ⟨p.route, (s.queue p.route).batch, p.slot, (s.family p.family).now.keyRef p.family⟩

/-- The working fields of the reservation record (R75, R85). -/
def State.reservationWork (s : State) (q : Request) (p : WrapPlan) : ReservationWork :=
  { lane := q.lane
    corr := q.corr
    kind := p.kind
    terminal := q.terminal
    till := q.till
    cls := p.cls
    offline := p.offline
    amount := p.amount
    fraction := p.fraction
    stamp := s.time
    ref := p.ref
    card := p.kind.cardFor q.card
    discarded := false }

/-- The reservation: slot, counter, batch, time stamp, and the engine BUSY (R85). -/
def State.reserve (s : State) (q : Request) (p : WrapPlan) : State :=
  let s1 := s.reserveCounter p.family
  { s1 with
    qm := { s1.qm with poolFree := freeListAfter s.qm.poolFree p.slot }
    engine := .busy (s.reservationKept p) (s.reservationWork q p) }

/-! ### Answers of the Wrap Engine -/

/-- The advisory bits as they stand (R90). -/
def State.advisory (s : State) (r : RouteNo) : Advisory := ⟨s.cutover.near, (s.route r).state != .up⟩

/-! ### Withdrawal (R92) -/

/-- The original's record turned into a VOID record in place (R92). -/
def Record.withdrawn (rec : Record) (till : Nat) (h : HistoryEntry) : Record :=
  { rec with kind := .void, till := till, card := none, ref := some ⟨h.id, h.till⟩ }

/-- History entries with the original marked reversed, and VOIDED where it is withdrawn (R16). -/
def markReversed (till : Nat) (voided : Bool) (hs : List HistoryEntry) : List HistoryEntry :=
  hs.map fun h =>
    if h.till = till then
      { h with reversed := true, disposition := if voided then .voided else h.disposition }
    else h

/-- A history list with an entry added at the front; a full list drops its last (R13). -/
def addHistory (h : HistoryEntry) (hs : List HistoryEntry) : List HistoryEntry := (h :: hs).take Config.historyLimit

/-- The history entry of a withdrawal (R14). -/
def withdrawalEntry (till : Nat) (h : HistoryEntry) : HistoryEntry :=
  ⟨till, .reversal, h.amount, h.id, h.cls, .pending, false, false⟩

/-- The original's record made VOID where it stands (R92 step 1). -/
def State.voidRecord (s : State) (r : RouteNo) (till : Nat) (h : HistoryEntry) : State :=
  match s.slotOf r h.id with
  | some n =>
    match s.at? n with
    | some rec => s.writeSlot n (rec.withdrawn till h)
    | none => s
  | none => s

/-- The withdrawal of an original (R92). -/
def State.withdraw (s : State) (q : Request) (h : HistoryEntry) : State :=
  let r := (s.term q.terminal).route
  let s1 := (s.voidRecord r q.till h).addTotals r q.terminal .withdrawal h.amount
  let e := s1.term q.terminal
  let s2 := s1.setTerm q.terminal
    { e with history := addHistory (withdrawalEntry q.till h) (markReversed h.till true e.history) }
  (s2.releaseTest q.terminal).answer (.lane q.lane) q.corr .withdrawn (.wrap (s.advisory r) h.id)

/-! ### GRANT (R65 to R67, R76, R84) -/

/-- The Intake Arbiter once a lane's head has been granted: the head has left its queue, the pointer names the lane (R66,
R67). -/
def Intake.granted (k : Intake) (i : LaneNo) : Intake :=
  let lane := Vec.get k.lanes i
  { lanes := Vec.put k.lanes i { lane with queue := lane.queue.tail }, rotation := i }

/-- The outcome of the grant checks carried out (R84, R85, R92). -/
def State.settleGrant (s : State) (q : Request) : Verdict → State
  | .refused code => s.answer (.lane q.lane) q.corr code
  | .duplicate h => s.answer (.lane q.lane) q.corr .duplicate (.duplicate h.id h.disposition h.reversed)
  | .withdraw h => s.withdraw q h
  | .wrap p => s.reserve q p

/-- A grant of a lane's head (R67, R76). -/
def State.grantHead (s : State) (i : LaneNo) (q : Request) : State :=
  let s' := { s with intake := s.intake.granted i }
  s'.settleGrant q (s'.grantChecks q)

/-- GRANT (R65): nothing where no head is eligible. -/
def execGrant (s : State) : Host.Outcome State Fault Refusal :=
  .next (
    if s.awake then
      match s.grantLane with
      | none => s
      | some i =>
        match (s.lane i).queue with
        | [] => s
        | q :: _ => s.grantHead i q
    else s)

/-! ### COMPLETION (R88 to R91) -/

/-- The enciphered length: rounded up to the next multiple of 16 (R26). -/
def cipherLength (n : Nat) : Nat := (n + 15) / 16 * 16

/-- The card section of a record (R26); its bytes are the cipher core's (DESIGN CHOICE, log 7). -/
def cardSection (root : Option Root) (t : TerminalNo) (k : KeyRef) (card : List Byte) : CardSection :=
  { data := (List.range (cipherLength card.length)).map fun i =>
      Config.cipherByte root t.val k.generation k.epoch k.counter card i
    pad := cipherLength card.length - card.length }

/-- Record kind of a wrap (R88). -/
def WrapKind.recordKind : WrapKind → RecordKind
  | .auth => .auth
  | .refund => .refund
  | .reversal => .reversal

/-- Card section of a wrap's record: absent for a REVERSAL (R88). -/
def WrapKind.section (kind : WrapKind) (c : CardSection) : Option CardSection :=
  match kind with
  | .reversal => none
  | _ => some c

/-- The record a completion writes (R88). DEDUCED (log 24). -/
def State.completedRecord (s : State) (k : ReservationKept) (w : ReservationWork) : Record :=
  { kind := w.kind.recordKind
    cls := w.cls
    state := .pending
    id := ⟨k.route, k.batch, (s.queue k.route).nextSeq⟩
    terminal := w.terminal
    till := w.till
    stamp := w.stamp
    key := k.key
    offline := w.offline
    offers := 0
    fraction := w.fraction
    amount := w.amount
    card := w.kind.section (cardSection (s.family k.key.family).now.root w.terminal k.key w.card)
    ref := w.ref }

/-- Slot of a reservation (R85). -/
def ReservedSlot.slot (place : RingPlace) (r : RouteNo) : ReservedSlot → Nat
  | .live p => (livePlace r).slot p
  | .store p => place.slot p
  | .pool n => n

/-- A ring with a record appended at bottom (R89). -/
def Ring.append (g : Ring) : Ring := { g with bottom := g.bottom + 1 }

/-- A route's queue state with a record appended in its reserved place and the next sequence taken (R88, R89). -/
def RouteQueue.append (q : RouteQueue) (r : RouteNo) (place : RingPlace) (slots : List (Nat × Record))
    (slot : ReservedSlot) : RouteQueue :=
  let q1 :=
    match slot with
    | .live _ => { q with nextSeq := q.nextSeq + 1, live := q.live.append }
    | .store _ => { q with nextSeq := q.nextSeq + 1, store := q.store.append }
    | .pool n => { q with nextSeq := q.nextSeq + 1, overflow := q.overflow ++ [n] }
  q1.seek r place slots

/-- A record written into its reserved slot and appended to its route's queue (R88, R89). -/
def State.append (s : State) (k : ReservationKept) (rec : Record) : State :=
  let place := s.storePlace k.route
  let slots := Store.put s.qm.slots (k.slot.slot place k.route) rec
  { s with
    qm := { s.qm with
      slots := slots
      queues := Vec.put s.qm.queues k.route ((s.queue k.route).append k.route place slots k.slot) } }

/-- What a wrap's completion is for the totals (R49). -/
def ReservationWork.completed (w : ReservationWork) : Completed :=
  match w.kind with
  | .auth => if w.offline then .offlineSale else .sale
  | .refund => .refund
  | .reversal => .reversal

/-- The history entry of a completion (R14). -/
def completionEntry (w : ReservationWork) (id : Identity) : HistoryEntry :=
  ⟨w.till, w.kind, w.amount, id, w.cls, .pending, false, w.offline⟩

/-- The history list with the original marked where the wrap is a REVERSAL (R16). -/
def historyMarked (w : ReservationWork) (hs : List HistoryEntry) : List HistoryEntry :=
  match w.ref with
  | some ref => markReversed ref.till false hs
  | none => hs

/-- Code of a completion's answer (R90). -/
def ReservationWork.answerCode (w : ReservationWork) : Code := if w.offline then .offlineAccepted else .wrapped

/-- A route's queue state with its batch-full flag set (R112). -/
def RouteQueue.setFull (q : RouteQueue) : RouteQueue := { q with full := true }

/-- A close due on the route of a completion (R91, R112): `last` says that the completion took sequence 65,534.
DEDUCED (log 30). -/
def State.dueClose (s : State) (r : RouteNo) (last : Bool) : State :=
  let q := s.queue r
  match q.pending with
  | some p =>
    if q.buffer = none then s.performClose r p.reasonNow
    else if last then s.setQueue r q.setFull
    else s
  | none =>
    if last then
      if q.buffer = none then s.performClose r .batchFull
      else (s.setQueue r q.setFull).deferClose r .batchFull
    else s

/-- A wrap in flight completed, apart from a close that falls due at its completion: record, totals, history, release test,
answer, and the engine IDLE (R88 to R90). -/
def State.completeWrap (s : State) (k : ReservationKept) (w : ReservationWork) : State :=
  let rec_ := s.completedRecord k w
  let s1 := State.append { s with engine := .idle } k rec_
  let s2 := s1.raiseIf (w.cls == .store && s1.ringLow k.route) .storeHigh
  let s3 := s2.addTotals k.route w.terminal w.completed w.amount
  let e := s3.term w.terminal
  let s4 := s3.setTerm w.terminal
    { e with history := addHistory (completionEntry w rec_.id) (historyMarked w e.history) }
  let s5 := s4.releaseTest w.terminal
  if w.discarded then s5
  else s5.answer (.lane w.lane) w.corr w.answerCode (.wrap (s.advisory k.route) rec_.id)

/-- The completion of the wrap in flight, with the close that falls due at it (R88 to R91). -/
def State.complete (s : State) (k : ReservationKept) (w : ReservationWork) : State :=
  (s.completeWrap k w).dueClose k.route ((s.queue k.route).nextSeq == Config.lastDataSeq)

/-- COMPLETION (R90): nothing where no wrap is in flight. -/
def execCompletion (s : State) : Host.Outcome State Fault Refusal :=
  .next (
    if s.awake then
      match s.engine with
      | .busy k w => s.complete k w
      | _ => s
    else s)

end Sys2Proof.Machine
end

