-- ==== Sys2Proof/Machine/Dispatch.lean ====
section
/-! DEFINITION. The effect of one command: one arm per row of spec/opcode_table.json. -/

namespace Sys2Proof.Machine

/-- The effect of a command on everything but the queue of commands. -/
def exec (i : Instr) (s : State) : Host.Outcome State Fault Refusal :=
  match i with
  | .auth l corr p => Sys2Proof.Machine.execAuth l corr p s
  | .refund l corr p => Sys2Proof.Machine.execRefund l corr p s
  | .reversal l corr p => Sys2Proof.Machine.execReversal l corr p s
  | .laneStatus l corr p => Sys2Proof.Machine.execLaneStatus l corr p s
  | .linkReset l corr p => Sys2Proof.Machine.execLinkReset l corr p s
  | .frameBad l chars => Sys2Proof.Machine.execFrameBad l chars s
  | .lineBreak l => Sys2Proof.Machine.execLineBreak l s
  | .lineBreakEnd l => Sys2Proof.Machine.execLineBreakEnd l s
  | .grant => Sys2Proof.Machine.execGrant s
  | .completion => Sys2Proof.Machine.execCompletion s
  | .enrol l corr p => Sys2Proof.Machine.execEnrol l corr p s
  | .holdTerminal l corr p => Sys2Proof.Machine.execHoldTerminal l corr p s
  | .releaseTerminal l corr p => Sys2Proof.Machine.execReleaseTerminal l corr p s
  | .move l corr p => Sys2Proof.Machine.execMove l corr p s
  | .retire l corr p => Sys2Proof.Machine.execRetire l corr p s
  | .setFloor l corr p => Sys2Proof.Machine.execSetFloor l corr p s
  | .terminalQuery l corr p => Sys2Proof.Machine.execTerminalQuery l corr p s
  | .keyLoad l corr p => Sys2Proof.Machine.execKeyLoad l corr p s
  | .loadCompletion f => Sys2Proof.Machine.execLoadCompletion f s
  | .rollFamily l corr p => Sys2Proof.Machine.execRollFamily l corr p s
  | .rollCompletion f => Sys2Proof.Machine.execRollCompletion f s
  | .retireFamily l corr p => Sys2Proof.Machine.execRetireFamily l corr p s
  | .familyQuery l corr p => Sys2Proof.Machine.execFamilyQuery l corr p s
  | .setCeiling l corr p => Sys2Proof.Machine.execSetCeiling l corr p s
  | .holdLane l corr p => Sys2Proof.Machine.execHoldLane l corr p s
  | .releaseLane l corr p => Sys2Proof.Machine.execReleaseLane l corr p s
  | .routeUp l corr p => Sys2Proof.Machine.execRouteUp l corr p s
  | .routeDown l corr p => Sys2Proof.Machine.execRouteDown l corr p s
  | .pullOne l corr p => Sys2Proof.Machine.execPullOne l corr p s
  | .pullBlock l corr p => Sys2Proof.Machine.execPullBlock l corr p s
  | .streamOpen l corr p => Sys2Proof.Machine.execStreamOpen l corr p s
  | .streamClose l corr p => Sys2Proof.Machine.execStreamClose l corr p s
  | .streamOffer l => Sys2Proof.Machine.execStreamOffer l s
  | .transmitComplete l => Sys2Proof.Machine.execTransmitComplete l s
  | .ackOne l corr p => Sys2Proof.Machine.execAckOne l corr p s
  | .ackOldest l corr p => Sys2Proof.Machine.execAckOldest l corr p s
  | .ackThrough l corr p => Sys2Proof.Machine.execAckThrough l corr p s
  | .ackTimerExpiry r => Sys2Proof.Machine.execAckTimerExpiry r s
  | .tick => Sys2Proof.Machine.execTick s
  | .nearWarning => Sys2Proof.Machine.execNearWarning s
  | .cutoverMatch => Sys2Proof.Machine.execCutoverMatch s
  | .cutoverClosingStart => Sys2Proof.Machine.execCutoverClosingStart s
  | .cutoverRouteClose => Sys2Proof.Machine.execCutoverRouteClose s
  | .cutoverFamilyRoll => Sys2Proof.Machine.execCutoverFamilyRoll s
  | .setClock l corr p => Sys2Proof.Machine.execSetClock l corr p s
  | .setCutover l corr p => Sys2Proof.Machine.execSetCutover l corr p s
  | .closeBatch l corr p => Sys2Proof.Machine.execCloseBatch l corr p s
  | .deferredClose r => Sys2Proof.Machine.execDeferredClose r s
  | .setupBegin l corr p => Sys2Proof.Machine.execSetupBegin l corr p s
  | .routeDefine l corr p => Sys2Proof.Machine.execRouteDefine l corr p s
  | .setupEnd l corr p => Sys2Proof.Machine.execSetupEnd l corr p s
  | .statusRead l corr p => Sys2Proof.Machine.execStatusRead l corr p s
  | .faultRead l corr p => Sys2Proof.Machine.execFaultRead l corr p s
  | .routeQuery l corr p => Sys2Proof.Machine.execRouteQuery l corr p s
  | .erase l corr p => Sys2Proof.Machine.execErase l corr p s
  | .warmRestore straps => Sys2Proof.Machine.execWarmRestore straps s
  | .storeLost straps => Sys2Proof.Machine.execStoreLost straps s
  | .resetLine => Sys2Proof.Machine.execResetLine s
  | .powerLoss => Sys2Proof.Machine.execPowerLoss s
  | .retentionLoss => Sys2Proof.Machine.execRetentionLoss s
  | .unknownKind l corr kind p => Sys2Proof.Machine.execUnknownKind l corr kind p s

end Sys2Proof.Machine
end

