-- ==== Sys2Proof/WellFormed.lean ====
section
/-! DEFINITION. Which commands can occur: what a frame can carry (R151, R154). -/

namespace Sys2Proof

/-- The length field of a frame counts its body in two bytes (R151). -/
def Instr.fits (i : Instr) : Bool :=
  match i.frame with
  | some f => decide (f.2.length ≤ 65535)
  | none => true

/-- UNKNOWN_KIND names a kind the part does not take (R154); FRAME_BAD has at least one character (R151). -/
def Instr.ownRow : Instr → Bool
  | .unknownKind _ _ kind _ => !requestKinds.contains kind
  | .frameBad _ chars => !chars.isEmpty
  | _ => true

/-- A well-formed command. -/
def Instr.wf (i : Instr) : Bool := i.fits && i.ownRow

end Sys2Proof
end

