-- ==== Sys2Proof/Safety.lean ====
section
/-! DEFINITION. What is true of every state the part reaches: the invariants the spec claims, block by block; and the
conditions under which a link takes a frame. -/

namespace Sys2Proof.Machine

/-! ### Arrival -/

/-- A link takes a frame with a payload of some length: supply on and RESET not held (R171), receiver HUNTING (R151, R158),
fewer than 32 answers and places (R156), a body within the link's largest (R150). -/
structure State.Hears (s : State) (l : LinkId) (n : Nat) : Prop where
  powered : s.supply = .on
  hunting : (s.link l).receiver = .hunting
  room    : (s.link l).queue.length < Config.responseLimit
  fits    : n + 2 ≤ largestBody l

/-- A kind of request: its command, the highest-numbered ring that may send it (R155), the payload lengths it has, none for
any length (R174), and whether it is a setup message, whose refusal ends an open sequence (R166). -/
structure RequestRow where
  make    : LinkId → Byte → List Byte → Instr
  ring    : Nat
  lengths : Option (List Nat)
  setup   : Bool

/-- The requests of the dispatch link and the service port (R155, R174). -/
def partnerRows : List RequestRow :=
  [⟨.pullOne, 1, some [1], false⟩, ⟨.pullBlock, 1, some [2], false⟩, ⟨.streamOpen, 1, some [3], false⟩,
   ⟨.streamClose, 1, some [1], false⟩, ⟨.ackOne, 1, some [5], false⟩, ⟨.ackOldest, 1, some [1], false⟩,
   ⟨.ackThrough, 1, some [5], false⟩, ⟨.routeUp, 1, some [1], false⟩, ⟨.routeDown, 1, some [1], false⟩] ++
  [⟨.setClock, 1, some [5], false⟩, ⟨.setCutover, 1, some [3], false⟩, ⟨.closeBatch, 1, some [1], false⟩,
   ⟨.rollFamily, 1, some [1], false⟩, ⟨.setCeiling, 1, some [7], false⟩, ⟨.holdLane, 1, some [1], false⟩,
   ⟨.releaseLane, 1, some [1], false⟩, ⟨.statusRead, 1, some [0, 2], false⟩, ⟨.faultRead, 1, some [0], false⟩,
   ⟨.routeQuery, 1, some [1], false⟩] ++
  [⟨.enrol, 1, some [11], false⟩, ⟨.holdTerminal, 1, some [1], false⟩, ⟨.releaseTerminal, 1, some [1], false⟩,
   ⟨.move, 1, some [5], false⟩, ⟨.retire, 1, some [1], false⟩, ⟨.setFloor, 1, some [7], false⟩,
   ⟨.terminalQuery, 1, some [1], false⟩, ⟨.familyQuery, 1, some [1], false⟩] ++
  [⟨.keyLoad, 0, some [43], false⟩, ⟨.retireFamily, 0, some [1], false⟩, ⟨.setupBegin, 0, some [2], true⟩,
   ⟨.routeDefine, 0, some [19], true⟩, ⟨.setupEnd, 0, some [0], true⟩, ⟨.erase, 0, some [0], false⟩]

/-- The requests of the lanes (R155). -/
def laneRows : List RequestRow :=
  [⟨.auth, 2, none, false⟩, ⟨.refund, 2, none, false⟩, ⟨.reversal, 2, none, false⟩, ⟨.laneStatus, 2, none, false⟩]

/-- A partner link that may send dispatch commands: the dispatch link or the service port (R155). -/
def isPartner : LinkId → Bool
  | .lane _ => false
  | _ => true

/-- The commands that only a RUNNING part takes: in BLANK and SETUP they are refused NOT_RUNNING before anything else of
their own is checked (R162). -/
def runningRows : List RequestRow :=
  [⟨.pullOne, 1, some [1], false⟩, ⟨.pullBlock, 1, some [2], false⟩, ⟨.streamOpen, 1, some [3], false⟩,
   ⟨.streamClose, 1, some [1], false⟩, ⟨.ackOne, 1, some [5], false⟩, ⟨.ackOldest, 1, some [1], false⟩,
   ⟨.ackThrough, 1, some [5], false⟩, ⟨.routeUp, 1, some [1], false⟩, ⟨.routeDown, 1, some [1], false⟩] ++
  [⟨.setCutover, 1, some [3], false⟩, ⟨.closeBatch, 1, some [1], false⟩, ⟨.rollFamily, 1, some [1], false⟩,
   ⟨.setCeiling, 1, some [7], false⟩, ⟨.holdLane, 1, some [1], false⟩, ⟨.releaseLane, 1, some [1], false⟩] ++
  [⟨.enrol, 1, some [11], false⟩, ⟨.holdTerminal, 1, some [1], false⟩, ⟨.releaseTerminal, 1, some [1], false⟩,
   ⟨.move, 1, some [5], false⟩, ⟨.retire, 1, some [1], false⟩, ⟨.setFloor, 1, some [7], false⟩]

/-- The commands that BLANK and RUNNING take: in SETUP they are refused NOT_RUNNING (R28, R35, R138). -/
def notInSetupRows : List RequestRow :=
  [⟨.setClock, 1, some [5], false⟩, ⟨.keyLoad, 0, some [43], false⟩, ⟨.retireFamily, 0, some [1], false⟩]

/-- The effects of a link reset (R72, R136, R160): the state after it, but for the receiver, the level of the line and what
then joins the response queue. -/
structure LinkResetEffects (s : State) (l : LinkId) (t : State) : Prop where
  sending   : (t.link l).sending = none
  pointer   : (t.link l).pointer = (s.link l).pointer
  others    : ∀ m, m ≠ l → t.link m = s.link m
  lane      : ∀ i, l = .lane i → t.lane i = { s.lane i with queue := [] }
  lanes     : ∀ j, l ≠ .lane j → t.lane j = s.lane j
  rotation  : t.intake.rotation = s.intake.rotation
  discarded : ∀ i k w, l = .lane i → s.engine = .busy k w →
    t.engine = .busy k (if w.lane = i then { w with discarded := true } else w)
  engine    : isPartner l = true ∨ s.engine = .idle → t.engine = s.engine
  streams   : ∀ r, t.route r =
    (if ((s.route r).stream.map (·.link)) = some l ∧ isPartner l = true then { s.route r with stream := none } else s.route r)
  status    : t.status = (if l = .service then s.abandon.status else s.status)
  kept      : t.terminals = s.terminals ∧ t.keys = s.keys ∧ t.accounts = s.accounts ∧ t.qm = s.qm ∧
    t.cutover = s.cutover ∧ t.supply = s.supply ∧ t.valid = s.valid

/-! ### Key families (R22 to R25) -/

/-- A family record in range: the counter never exceeds the ceiling, a serving family is EXHAUSTED exactly when its counter
equals its ceiling, a root is held exactly while the family can serve (R22, R23, R25). -/
structure FamilyRecord.Ok (k : FamilyRecord) : Prop where
  ceiling    : 1 ≤ k.ceiling ∧ k.ceiling ≤ 1048575
  low        : k.low ≤ k.ceiling
  counter    : k.counter ≤ k.ceiling
  exhausted  : k.state = .active ∨ k.state = .low ∨ k.state = .exhausted → (k.state = .exhausted ↔ k.counter = k.ceiling)
  generation : k.generation ≤ 65535
  epoch      : k.epoch ≤ 65535
  held       : k.state = .active ∨ k.state = .low ∨ k.state = .exhausted → k.root.isSome
  gone       : k.state = .empty ∨ k.state = .retired → k.root = none

/-- A family in order: its record, and prior contents that are in order and not LOADING or ROLLING exactly while an
operation is in progress (R22). -/
structure Family.Ok (k : Family) : Prop where
  now   : k.now.Ok
  none  : k.op = .none → k.prior = none ∧ k.now.working = false
  load  : k.op = .load → k.now.state = .loading ∧ k.now.generation < 65535
  roll  : k.op = .gatewayRoll ∨ k.op = .cutoverRoll → k.now.state = .rolling ∧ k.now.epoch < 65535 ∧ k.now.root.isSome
  prior : k.op ≠ .none → ∃ p, k.prior = some p ∧ p.Ok ∧ p.working = false

/-- The values of a load in hand are in range (R28). -/
structure LoadWork.Ok (w : LoadWork) : Prop where
  ceiling : 1 ≤ w.ceiling ∧ w.ceiling ≤ 1048575
  low     : w.low ≤ w.ceiling

/-- The Key Family Unit in order. -/
structure State.KeysOk (s : State) : Prop where
  families : ∀ f, (s.family f).Ok
  loads    : ∀ f w, Vec.get s.keys.loads f = some w → w.Ok

/-! ### Links and intake (R59, R156) -/

/-- 1 while the wrap in flight still owes a lane its answer. -/
def Engine.owes : Engine → LaneNo → Nat
  | .busy _ w, i => if w.lane = i ∧ w.discarded = false then 1 else 0
  | _, _ => 0

/-- The number of routes whose stream is open on a link. -/
def State.streamsOn (s : State) (l : LinkId) : Nat :=
  (List.finRange 4).countP fun r =>
    match (s.route r).stream with
    | some st => st.link == l
    | none => false

/-- The response queues and the intake queues within their bounds: no intake queue above 8, a lane's response queue with
the answers still owed at most 41, a partner link's response queue with its open streams at most 36 (R59, R156). -/
structure State.QueuesOk (s : State) : Prop where
  intake  : ∀ i, (s.lane i).queue.length ≤ Config.intakeLimit
  own     : ∀ i q, q ∈ (s.lane i).queue → q.lane = i
  lanes   : ∀ i, (s.link (.lane i)).queue.length + (s.lane i).queue.length + s.engine.owes i ≤ 41
  streams : ∀ r st, (s.route r).stream = some st → isPartner st.link = true
  partner : ∀ l, isPartner l = true → (s.link l).queue.length + s.streamsOn l ≤ 36

/-! ### Configuration and dispatch (R115, R120, R121, R131, R164) -/

/-- The ranges of a route's configuration (R164). -/
structure RouteConfig.Ok (c : RouteConfig) : Prop where
  k         : 4 ≤ c.k ∧ c.k ≤ 10
  fraction  : c.fraction ≤ 3
  plus      : 1 ≤ c.plus ∧ c.plus ≤ 255
  minus     : 1 ≤ c.minus ∧ c.minus ≤ c.plus
  init      : 1 ≤ c.init ∧ c.init ≤ c.plus
  window    : 1 ≤ c.window ∧ c.window ≤ 32
  tags      : c.tagStart ≤ c.tagEnd ∧ c.tagEnd ≤ 7
  timeout   : c.timeout ≤ 255
  highWater : c.highWater ≤ 2 ^ c.k

/-- A defined route's dispatch state in range: e from 1 to drain plus, an offered list no longer than W, a timer that runs
only for a first entry, nothing offered, timed or streamed on a DOWN route, stream counts from 1 to 255 (R115, R118, R120,
R121, R131). -/
structure RouteDispatch.Ok (d : RouteDispatch) (c : RouteConfig) : Prop where
  e       : 1 ≤ d.e ∧ d.e ≤ c.plus
  window  : d.offered.length ≤ c.window
  tag     : d.tag ≤ 65535
  down    : d.state ≠ .up → d.offered = [] ∧ d.timer = .stopped ∧ d.stream = none
  first   : d.timer ≠ .stopped → d.offered ≠ []
  timer   : ∀ n, d.timer = .running n → n ≤ c.timeout
  stream  : ∀ st, d.stream = some st → 1 ≤ st.current ∧ st.current ≤ st.base ∧ st.base ≤ 255

/-- The Dispatch Controller and the configurations in order. -/
structure State.DispatchOk (s : State) : Prop where
  config : ∀ r c, s.config r = some c → c.Ok
  staged : ∀ g c, s.status.staged = some g → c ∈ g.routes → c.Ok
  routes : ∀ r c, s.config r = some c → (s.route r).Ok c

/-! ### Terminal Table (R1, R13) -/

/-- A terminal entry in order: a VACANT entry holds the empty values; a history list holds at most 8 entries and no till
sequence twice (R1, R13). -/
structure Terminal.Ok (e : Terminal) : Prop where
  vacant   : e.state = .vacant → e = Terminal.vacant
  length   : e.history.length ≤ Config.historyLimit
  distinct : (e.history.map (·.till)).Nodup

/-- The Terminal Table in order; the terminal of a wrap in flight is not VACANT and does not hold its till sequence (R11,
R77). -/
structure State.TerminalsOk (s : State) : Prop where
  entries : ∀ t, (s.term t).Ok
  flight  : ∀ k w, s.engine = .busy k w →
    (s.term w.terminal).state ≠ .vacant ∧ ∀ h ∈ (s.term w.terminal).history, h.till ≠ w.till

/-! ### Amount and Totals Unit (R47, R51) -/

/-- The three sums of some totals are within their limit (R48). -/
structure Totals.Ok (t : Totals) : Prop where
  sale     : t.sale ≤ Config.maxSum
  refund   : t.refund ≤ Config.maxSum
  reversal : t.reversal ≤ Config.maxSum

/-- What the wrap in flight will add to a route's offline sum (R45, R49). -/
def Engine.offlineOwed : Engine → RouteNo → Nat
  | .busy k w, r => if k.route = r ∧ w.offline = true then w.amount else 0
  | _, _ => 0

/-- The Amount and Totals Unit in order: a route's offline sum, with what the wrap in flight will add to it, never exceeds
its active ceiling; no sum passes its limit; a wrap is in flight only while the part is RUNNING (R47, R51, R71). -/
structure State.AccountsOk (s : State) : Prop where
  offline   : ∀ r, (s.account r).offline + s.engine.offlineOwed r ≤ (s.account r).active
  routes    : ∀ r, (s.account r).totals.Ok
  terminals : ∀ t, (s.term t).totals.Ok
  running   : ∀ k w, s.engine = .busy k w → s.status.part = .running

/-! ### Record store (R96) -/

/-- A slot number that a reservation names lies in the record store. -/
def ReservedSlot.inPool : ReservedSlot → Prop
  | .pool n => n < Config.storeSlots
  | _ => True

/-- The retained fields of the reservation record, while there is one (R75). -/
def Engine.kept : Engine → Option ReservationKept
  | .idle => none
  | .busy k _ => some k
  | .cut k => some k

/-- The record store in order: its canonical form, no slot beyond the 2,048, a layout that fits (R96, R97, R165). -/
structure State.StoreOk (s : State) : Prop where
  canonical : Store.wf s.qm.slots = true
  slots     : ∀ c ∈ s.qm.slots, c.1 < Config.storeSlots
  free      : ∀ n ∈ s.qm.poolFree, n < Config.storeSlots
  overflow  : ∀ r n, n ∈ (s.queue r).overflow → n < Config.storeSlots
  reserved  : ∀ k, s.engine.kept = some k → k.slot.inPool
  layout    : poolStart s.status.config ≤ Config.storeSlots
  running   : ∀ k w, s.engine = .busy k w → s.status.part = .running ∧ s.defined k.route = true

/-! ### Cut-over Unit and setup (R137, R139, R142, R162) -/

/-- The hour of a setting in range (R139). -/
def CutoverHour.Ok : CutoverHour → Prop
  | .any => True
  | .hour h => h ≤ 23

/-- The Cut-over Unit in order: clock and setting in range; match time, next route and next family absent exactly as the
stage says; a cut-over roll only for the next family in ROLLING; a near warning only while IDLE (R137, R139, R141, R142,
R145). -/
structure State.CutoverOk (s : State) : Prop where
  clock   : s.cutover.clock.sec < Config.daySeconds ∧ s.cutover.clock.day ≤ 65535
  setting : s.cutover.setting.hour.Ok ∧ s.cutover.setting.minute ≤ 59
  idle    : s.cutover.stage = .idle →
    s.cutover.matchTime = none ∧ s.cutover.nextRoute = none ∧ s.cutover.nextFamily = none
  closing : s.cutover.stage = .waiting ∨ s.cutover.stage = .closing →
    s.cutover.matchTime.isSome ∧ s.cutover.nextRoute.isSome ∧ s.cutover.nextFamily = some 0
  rolling : s.cutover.stage = .rolling →
    s.cutover.matchTime.isSome ∧ s.cutover.nextRoute = none ∧ s.cutover.nextFamily.isSome
  roll    : ∀ f, (s.family f).op = .cutoverRoll → s.cutover.stage = .rolling ∧ s.cutover.nextFamily = some f
  near    : s.cutover.near = true ∨ s.cutover.nearDue = true → s.cutover.stage = .idle

/-- The Status and Setup Unit in order: outside SETUP no prior state and no staged configuration, in SETUP a prior state; at
most 16 entries in the fault log; a staged configuration for 1 to 4 routes (R162, R163, R169). -/
structure State.SetupOk (s : State) : Prop where
  outside : s.status.part ≠ .setup → s.status.prior = none ∧ s.status.staged = none
  inside  : s.status.part = .setup → s.status.prior.isSome
  log     : s.status.log.length ≤ Config.logLimit
  staged  : ∀ g, s.status.staged = some g → 1 ≤ g.count ∧ g.count ≤ 4 ∧ g.routes.length ≤ g.count

end Sys2Proof.Machine
end

