-- ==== Sys2Proof/Certificates/Slice0/Obligations.lean ====
section
/-! DEFINITION. The statements for the provers. Each is named for what it says; OBLIGATIONS.json cites the rules. -/

open Sys2Proof Sys2Proof.Machine

/-! ### Words the statements share -/

/-- The offer point of a ring by its definition: the first PENDING record at or after top, or bottom (R99). -/
def AtFirstPending (g : Ring) (place : RingPlace) (slots : List (Nat × Record)) : Prop :=
  (∀ x, g.top ≤ x → x < g.offer → x < g.bottom → slotIs slots (place.slot x) .pending = false) ∧
  (g.offer = g.bottom ∨ (g.top ≤ g.offer ∧ g.offer < g.bottom ∧ slotIs slots (place.slot g.offer) .pending = true))

/-- A ring as it was, its offer point at the first PENDING record (R99). -/
def OfferPointSet (g g' : Ring) (place : RingPlace) (slots : List (Nat × Record)) : Prop :=
  g'.top = g.top ∧ g'.bottom = g.bottom ∧ AtFirstPending g' place slots

/-- A terminal entry after the report of a record event: the history entry that carries the identity in the disposition
the event changes follows the record (R17). -/
def followed (e : Terminal) (id : Identity) (before after : Disposition) : Terminal :=
  { e with history := e.history.map fun h =>
      if h.id = id ∧ h.disposition = before then { h with disposition := after } else h }

/-- The release test of an entry (R11). -/
def PassesRelease (engine : Engine) (n : TerminalNo) (e : Terminal) : Prop :=
  e.state = .closing ∧ e.totals = Totals.zero ∧
  (∀ h ∈ e.history, h.disposition ≠ .pending ∧ h.disposition ≠ .offered) ∧ ∀ k w, engine = .busy k w → w.terminal ≠ n

/-- The bytes of a frame before escaping: length, body, CRC (R151, R152). -/
def plainFrame (body : List Byte) : List Byte :=
  bigEndian 2 body.length ++ body ++ bigEndian 2 (crc (bigEndian 2 body.length ++ body)).toNat

/-- How far a lane or route stands from its pointer in the search of R66 and R126: 0 for the one after it, 3 for its
own. -/
def searchPlace (pointer lane : LaneNo) : Nat := (lane.val + 3 - pointer.val) % 4

/-! ### The step and the start -/

/-- A step takes the command at the front of the queue, and on an empty queue the part idles (log 2). -/
def Obligations.StepTakesFrontCommand : Prop :=
  (∀ (c : Instr) (rest : List Instr) (s : State), s.pending = c :: rest → step s = exec c { s with pending := rest }) ∧
  ∀ s : State, s.pending = [] → step s = .next s

/-- Every command answers a next state in every state, and touches no command that waits. That no command stops, and
that an event's command outside its trigger answers the state as it stands, are the model's readings (logs 27 and 1). -/
def Obligations.EveryCommandCompletes : Prop :=
  ∀ (c : Instr) (s : State), ∃ t, exec c s = .next t ∧ t.pending = s.pending

/-- The values the spec gives after lost retention, as `State.reset` holds them. That every receiver is HUNTING rests on
lines at their idle level, which is the model's choice (log 6). -/
def Obligations.ResetValues : Prop :=
  let s := State.reset
  Totals.zero = ⟨0, 0, 0, 0, 0, 0, 0, 0⟩ ∧ Terminal.vacant = ⟨.vacant, 0, 0, 0, 0, 0, [], Totals.zero⟩ ∧
  s.status.part = .blank ∧ (∀ r, s.config r = none) ∧ (∀ t, s.term t = Terminal.vacant) ∧
  (∀ f, (s.family f).now.state = .empty ∧ (s.family f).now.generation = 0 ∧ (s.family f).now.root = none) ∧
  s.qm.slots = [] ∧ (∀ r, (s.queue r).batch = 1) ∧
  (∀ r, (s.account r).totals = Totals.zero ∧ (s.account r).offline = 0 ∧ (s.account r).overflow = false ∧
    (s.account r).active = 0 ∧ (s.account r).pending = 0) ∧
  s.time = ⟨0, 0⟩ ∧ s.cutover.unset = true ∧ s.cutover.setting.enabled = false ∧ s.cutover.stage = .idle ∧
  (∀ e : EventFlag, holdsFlag s.status.enables e = true) ∧
  (∀ e : EventFlag, holdsFlag s.status.flags e = (e == .storeLost)) ∧ s.status.log = [] ∧ s.alertLine = true ∧
  (∀ l, (s.link l).receiver = .hunting ∧ (s.link l).queue = [] ∧ (s.link l).pointer = 3)

/-! ### Arrival of requests -/

/-- A request whose link's ring is too high, and a lane's request on a link that has no lane, is refused PRIVILEGE and
changes nothing else. -/
def Obligations.PrivilegeByRing : Prop :=
  ((∀ i : LaneNo, linkRing (.lane i) = 2 ∧ isPartner (.lane i) = false) ∧
    linkRing .dispatch = 1 ∧ isPartner .dispatch = true ∧ linkRing .service = 0 ∧ isPartner .service = true) ∧
  (∀ row ∈ partnerRows, ∀ (l : LinkId) (corr : Byte) (p : List Byte) (s : State), s.Hears l p.length →
    row.ring < linkRing l → exec (row.make l corr p) s = .next (s.answer l corr .privilege)) ∧
  ∀ row ∈ laneRows, ∀ (l : LinkId) (corr : Byte) (p : List Byte) (s : State), s.Hears l p.length →
    isPartner l = true → exec (row.make l corr p) s = .next (s.answer l corr .privilege)

/-- A payload of a length its kind does not have is refused BAD_PARAMETER; a setup message so refused ends an open
sequence. -/
def Obligations.PayloadLengthChecked : Prop :=
  ∀ row ∈ partnerRows, ∀ (ns : List Nat) (l : LinkId) (corr : Byte) (p : List Byte) (s : State),
    row.lengths = some ns → s.Hears l p.length → linkRing l ≤ row.ring → p.length ∉ ns →
    exec (row.make l corr p) s = .next ((if row.setup then s.abandon else s).answer l corr .badParameter)

/-- A frame is discarded without effect when its link's response queue holds 32 entries, when its line is in break,
without supply and with RESET held. With a frame in progress, a frame whose beginning the receiver holds acts as on the
link with its receiver free, another as on the link with the frame in progress ended by FRAME_BAD; a body above the
link's largest is answered FRAME_BAD. What a frame comes to that meets another, a break or an oversized body, and what a
full queue does with a bad frame, are the model's readings (logs 12 and 10). -/
def Obligations.FrameArrival : Prop :=
  ((∀ i : LaneNo, largestBody (.lane i) = 256) ∧ largestBody .dispatch = 4096 ∧ largestBody .service = 256 ∧
    frameBadAnswer = .answer 0#8 .frameBad .bare) ∧
  (∀ (s : State) (l : LinkId), s.freeReceiver l = s.setLink l { s.link l with receiver := .hunting } ∧
    s.cutFrame l = (if (s.link l).queue.length < 32 then (s.send l frameBadAnswer).freeReceiver l else s.freeReceiver l)) ∧
  (∀ (taken : List Byte) (esc : Bool) (body : List Byte), (Receiver.receiving taken esc).begins body = true ↔
    ∃ next rest, plainFrame body = taken ++ next :: rest ∧ (esc = true → next = 126#8 ∨ next = 125#8)) ∧
  (∀ row ∈ partnerRows ++ laneRows, ∀ (l : LinkId) (corr : Byte) (p : List Byte) (s : State),
     s.supply ≠ .on ∨ (s.link l).receiver = .inBreak ∨
       ((s.link l).receiver = .hunting ∧ Config.responseLimit ≤ (s.link l).queue.length) →
     exec (row.make l corr p) s = .next s) ∧
  (∀ row ∈ partnerRows ++ laneRows, ∀ (l : LinkId) (corr : Byte) (p body : List Byte) (s : State), s.supply = .on →
     (row.make l corr p).frame = some (l, body) →
     (∀ taken esc, (s.link l).receiver = .receiving taken esc →
       ((s.link l).receiver.begins body = true → exec (row.make l corr p) s = exec (row.make l corr p) (s.freeReceiver l)) ∧
       ((s.link l).receiver.begins body = false → exec (row.make l corr p) s = exec (row.make l corr p) (s.cutFrame l))) ∧
     ((s.link l).receiver = .hunting → (s.link l).queue.length < Config.responseLimit → largestBody l < p.length + 2 →
       exec (row.make l corr p) s = .next (s.send l frameBadAnswer)))

/-- Commands refused NOT_RUNNING outside RUNNING, and in SETUP. -/
def Obligations.NotRunningRefused : Prop :=
  (∀ row ∈ runningRows, ∀ (ns : List Nat) (l : LinkId) (corr : Byte) (p : List Byte) (s : State),
    row.lengths = some ns → s.Hears l p.length → linkRing l ≤ row.ring → p.length ∈ ns → s.status.part ≠ .running →
    exec (row.make l corr p) s = .next (s.answer l corr .notRunning)) ∧
  ∀ row ∈ notInSetupRows, ∀ (ns : List Nat) (l : LinkId) (corr : Byte) (p : List Byte) (s : State),
    row.lengths = some ns → s.Hears l p.length → linkRing l ≤ row.ring → p.length ∈ ns → s.status.part = .setup →
    exec (row.make l corr p) s = .next (s.answer l corr .notRunning)

/-- Numbers in bytes: most significant byte first; packed digits two to a byte, the first in the high nibble (R174). -/
def NumbersRead : Prop :=
  (numberOf [] = 0 ∧ ∀ (bs : List Byte) (b : Byte), numberOf (bs ++ [b]) = 256 * numberOf bs + b.toNat) ∧
  (∀ k n : Nat, (bigEndian k n).length = k ∧ numberOf (bigEndian k n) = n % 256 ^ k) ∧
  (nibblesOf [] = [] ∧
    ∀ (b : Byte) (bs : List Byte), nibblesOf (b :: bs) = b.toNat / 16 :: b.toNat % 16 :: nibblesOf bs) ∧
  (decimal [] = 0 ∧ ∀ (ds : List Nat) (d : Nat), decimal (ds ++ [d]) = 10 * decimal ds + d) ∧
  (∀ bs : List Byte, ((∀ d ∈ nibblesOf bs, d ≤ 9) → packedOf bs = some (decimal (nibblesOf bs))) ∧
    ((∃ d ∈ nibblesOf bs, 9 < d) → packedOf bs = none)) ∧
  ∀ k n : Nat, (packed k n).length = k ∧ (∀ d ∈ nibblesOf (packed k n), d ≤ 9) ∧
    decimal (nibblesOf (packed k n)) = n % 100 ^ k

/-- The values of the enumerated fields (R174). -/
def FieldValues : Prop :=
  [RecordKind.auth, .refund, .reversal, .void].map RecordKind.value = [1#8, 2#8, 3#8, 4#8] ∧
  [WrapKind.auth, .refund, .reversal].map WrapKind.value = [1#8, 2#8, 3#8] ∧
  [RecordClass.live, .store].map RecordClass.value = [1#8, 2#8] ∧
  [RecordState.pending, .offered, .acked].map RecordState.value = [1#8, 2#8, 3#8] ∧
  [none, some RecordState.pending, some .offered].map bufferValue = [0#8, 1#8, 2#8] ∧
  [Disposition.pending, .offered, .acked, .voided].map Disposition.value = [1#8, 2#8, 3#8, 4#8] ∧
  [CloseReason.scheduled, .manual, .batchFull, .deferred].map CloseReason.value = [1#8, 2#8, 3#8, 4#8] ∧
  [CloseWait.wrap, .buffer].map CloseWait.value = [1#8, 2#8] ∧
  [PartState.blank, .setup, .running].map PartState.value = [0#8, 1#8, 2#8] ∧
  [PriorState.blank, .running].map PriorState.value = [0#8, 2#8] ∧
  [DispatchState.down .start, .up].map DispatchState.value = [0#8, 1#8] ∧
  (∀ why, (DispatchState.down why).value = 0#8) ∧
  [DispatchState.up, .down .start, .down .command, .down .timeout, .down .restore].map DispatchState.reasonValue =
    [0#8, 1#8, 2#8, 3#8, 4#8] ∧
  [CutoverStage.idle, .waiting, .closing, .rolling].map CutoverStage.value = [0#8, 1#8, 2#8, 3#8] ∧
  [EndCause.count, .empty, .windowFull, .routeDown, .timeout].map EndCause.value = [1#8, 2#8, 3#8, 4#8, 5#8] ∧
  [TerminalState.vacant, .active, .held, .closing].map TerminalState.value = [0#8, 1#8, 2#8, 3#8] ∧
  [FamilyState.empty, .loading, .active, .low, .exhausted, .rolling, .retired].map FamilyState.value =
    [0#8, 1#8, 2#8, 3#8, 4#8, 5#8, 6#8] ∧
  [FamilyOp.none, .load, .gatewayRoll, .cutoverRoll].map FamilyOp.value = [0#8, 1#8, 2#8, 3#8] ∧
  [FaultCode.rollRefused, .rollLost, .closeDeferred, .ackTimeout].map FaultCode.value = [1#8, 2#8, 3#8, 4#8] ∧
  [HeadState.noHead, .eligible, .laneHeld, .familyBusy].map HeadState.value = [0#8, 1#8, 2#8, 3#8] ∧
  [Rounding.halfUp, .down].map Rounding.value = [0#8, 1#8] ∧
  (∀ h, (CutoverHour.hour h).value = BitVec.ofNat 8 h) ∧ CutoverHour.any.value = 255#8

/-- The values of the status codes and the bits of the events (R178). -/
def CodeValues : Prop :=
  [Code.done, .wrapped, .offlineAccepted, .withdrawn, .duplicate].map Code.value = [0#8, 1#8, 2#8, 3#8, 4#8] ∧
  [Code.frameBad, .unknownKind, .privilege, .notRunning, .terminalRange, .wrongLane, .cardLength, .cardShort, .cardLong,
    .busy].map Code.value = [0x10#8, 0x11#8, 0x12#8, 0x13#8, 0x14#8, 0x15#8, 0x16#8, 0x17#8, 0x18#8, 0x19#8] ∧
  [Code.terminalVacant, .terminalHeld, .terminalClosing, .terminalBusy].map Code.value =
    [0x20#8, 0x21#8, 0x22#8, 0x23#8] ∧
  [Code.notFound, .notReversible, .alreadyReversed, .stale].map Code.value = [0x28#8, 0x29#8, 0x2A#8, 0x2B#8] ∧
  [Code.amountFormat, .amountZero, .amountRange].map Code.value = [0x30#8, 0x31#8, 0x32#8] ∧
  [Code.routeUndefined, .routeDown, .offlineLimit, .batchFull, .liveFull, .storeFull].map Code.value =
    [0x38#8, 0x39#8, 0x3A#8, 0x3B#8, 0x3C#8, 0x3D#8] ∧
  [Code.keyExhausted, .keyUnavailable, .checkMismatch, .generationSpent, .epochSpent, .familyBusy].map Code.value =
    [0x40#8, 0x41#8, 0x42#8, 0x43#8, 0x44#8, 0x45#8] ∧
  [Code.windowFull, .empty, .notOffered].map Code.value = [0x48#8, 0x49#8, 0x4A#8] ∧
  [Code.badParameter, .sequenceBroken, .layoutTooLarge, .notEmpty, .cutoverActive].map Code.value =
    [0x50#8, 0x51#8, 0x52#8, 0x53#8, 0x54#8] ∧
  [EventFlag.cutoverNear, .cutoverDone, .closeDeferred, .keyLow, .keyExhausted, .storeHigh, .ackTimeout, .totalOverflow,
    .faultLogged, .restored, .storeLost].map EventFlag.bit = [0, 1, 2, 3, 4, 5, 6, 7, 8, 9, 10]

/-- The kinds the part takes as requests, and where a request's body carries its kind, correlation number and payload
(R174). -/
def RequestBodies : Prop :=
  requestKinds =
    [0x01#8, 0x02#8, 0x03#8, 0x04#8, 0x0F#8] ++
    [0x10#8, 0x11#8, 0x12#8, 0x13#8, 0x14#8, 0x15#8, 0x16#8, 0x17#8, 0x18#8] ++
    [0x20#8, 0x21#8, 0x22#8, 0x23#8, 0x24#8, 0x25#8, 0x26#8, 0x27#8, 0x28#8, 0x29#8] ++
    [0x30#8, 0x31#8, 0x32#8, 0x33#8, 0x34#8, 0x35#8, 0x36#8, 0x37#8] ++
    [0x40#8, 0x41#8, 0x42#8, 0x43#8, 0x44#8, 0x45#8] ∧
  ∀ (l : LinkId) (corr : Byte) (p : List Byte),
    let carried := fun (kinds : List Byte) => kinds.map fun k => some (l, k :: corr :: p)
    [Instr.auth l corr p, .refund l corr p, .reversal l corr p, .laneStatus l corr p, .linkReset l corr p].map
        Instr.frame = carried [0x01#8, 0x02#8, 0x03#8, 0x04#8, 0x0F#8] ∧
    [Instr.pullOne l corr p, .pullBlock l corr p, .streamOpen l corr p, .streamClose l corr p, .ackOne l corr p,
        .ackOldest l corr p, .ackThrough l corr p, .routeUp l corr p, .routeDown l corr p].map Instr.frame =
      carried [0x10#8, 0x11#8, 0x12#8, 0x13#8, 0x14#8, 0x15#8, 0x16#8, 0x17#8, 0x18#8] ∧
    [Instr.setClock l corr p, .setCutover l corr p, .closeBatch l corr p, .rollFamily l corr p, .setCeiling l corr p,
        .holdLane l corr p, .releaseLane l corr p, .statusRead l corr p, .faultRead l corr p,
        .routeQuery l corr p].map Instr.frame =
      carried [0x20#8, 0x21#8, 0x22#8, 0x23#8, 0x24#8, 0x25#8, 0x26#8, 0x27#8, 0x28#8, 0x29#8] ∧
    [Instr.enrol l corr p, .holdTerminal l corr p, .releaseTerminal l corr p, .move l corr p, .retire l corr p,
        .setFloor l corr p, .terminalQuery l corr p, .familyQuery l corr p].map Instr.frame =
      carried [0x30#8, 0x31#8, 0x32#8, 0x33#8, 0x34#8, 0x35#8, 0x36#8, 0x37#8] ∧
    [Instr.keyLoad l corr p, .retireFamily l corr p, .setupBegin l corr p, .routeDefine l corr p, .setupEnd l corr p,
        .erase l corr p].map Instr.frame = carried [0x40#8, 0x41#8, 0x42#8, 0x43#8, 0x44#8, 0x45#8]

/-- A yes-or-no field: 1 for yes (R174). -/
def yesNo (b : Bool) : List Byte := [if b = true then 1#8 else 0#8]

/-- An identity in three fields: route, batch, sequence (R175). -/
def identityField (id : Identity) : List Byte := bigEndian 1 id.route.val ++ bigEndian 2 id.batch ++ bigEndian 2 id.seq

/-- A time in two fields: day, second of day (R176). -/
def timeField (t : ClockTime) : List Byte := bigEndian 2 t.day ++ bigEndian 3 t.sec

/-- The three sums of some totals, 16 packed digits each, and the five counts (R174). -/
def totalsField (t : Totals) : List Byte :=
  (packed 8 t.sale ++ packed 8 t.refund ++ packed 8 t.reversal) ++
  (bigEndian 2 t.saleCount ++ bigEndian 2 t.refundCount ++ bigEndian 2 t.reversalCount ++ bigEndian 2 t.voidCount ++
    bigEndian 2 t.offlineCount)

/-- A data record's image: the fields of R176's table, each in its bytes. -/
def RecordLaidOut (r : Record) : Prop :=
  (Image.data r).bytes =
    ([r.kind.value] ++ [r.cls.value] ++ [r.state.value] ++ bigEndian 2 r.id.batch ++ bigEndian 2 r.id.seq ++
      bigEndian 1 r.terminal.val ++ bigEndian 2 r.till ++ timeField r.stamp ++ bigEndian 1 r.key.family.val ++
      bigEndian 2 r.key.generation ++ bigEndian 2 r.key.epoch ++ bigEndian 3 r.key.counter ++ yesNo r.offline ++
      bigEndian 1 r.offers ++ bigEndian 1 r.fraction ++ packed 6 r.amount ++
      [match r.card.isSome, r.ref.isSome with
        | false, false => 0#8
        | true, false => 1#8
        | false, true => 2#8
        | true, true => 3#8]) ++
    (match r.card with
      | some c => bigEndian 1 c.data.length ++ bigEndian 1 c.pad ++ c.data
      | none => []) ++
    (match r.ref with
      | some x => identityField x.id ++ bigEndian 2 x.till
      | none => [])

/-- A close record's image: the fields of R177's table, each in its bytes. -/
def CloseLaidOut (c : CloseRecord) : Prop :=
  (Image.close c).bytes =
    [5#8] ++ [c.state.value] ++ bigEndian 2 c.id.batch ++ bigEndian 2 c.id.seq ++ [c.reason.value] ++
      timeField c.opened ++ timeField c.closed ++ yesNo c.overflow ++ bigEndian 1 c.offers ++
      (packed 8 c.totals.sale ++ packed 8 c.totals.refund ++ packed 8 c.totals.reversal ++ packed 8 c.offline) ++
      (bigEndian 2 c.totals.saleCount ++ bigEndian 2 c.totals.refundCount ++ bigEndian 2 c.totals.reversalCount ++
        bigEndian 2 c.totals.voidCount ++ bigEndian 2 c.totals.offlineCount) ++
      bigEndian 1 c.subtotals.length ++ c.subtotals.flatMap fun e => bigEndian 1 e.1.val ++ totalsField e.2

/-- A route's 20 bytes of the status reply (R178). -/
def routeBlock : Option RouteStatus → List Byte
  | none => List.replicate 20 0#8
  | some r => [1#8] ++ [r.state.value] ++ [r.state.reasonValue] ++ bigEndian 2 r.batch ++ bigEndian 2 r.nextSeq ++
      bigEndian 2 r.nPending ++ bigEndian 2 r.nOffered ++ bigEndian 2 r.nAcked ++ bigEndian 2 r.storeRoom ++
      yesNo r.ringLow ++ [bufferValue r.buffer] ++
      [match r.reason with
        | some why => why.value
        | none => 0#8] ++
      yesNo r.full ++ yesNo r.overflow

/-- A lane, route or family number, or FFh where it is absent or done (R174). -/
def indexField {n : Nat} : Option (Fin n) → List Byte
  | some i => bigEndian 1 i.val
  | none => [255#8]

/-- What follows the code in the answer to STATUS READ: the fields of R178's table. That an absent prior state is sent
as FFh is the model's choice (log 15). -/
def StatusLaidOut (r : StatusReport) : Prop :=
  (Reply.status r).bytes =
    bigEndian 2 r.flags.toNat ++ bigEndian 2 r.enables.toNat ++
    ([r.part.value] ++
      [match r.prior with
        | some x => x.value
        | none => 255#8] ++
      (match r.position with
        | some n => bigEndian 1 n
        | none => [255#8])) ++
    (timeField r.clock ++ yesNo r.unset) ++
    ([r.setting.hour.value] ++ bigEndian 1 r.setting.minute ++ yesNo r.setting.enabled) ++
    ([r.stage.value] ++
      (match r.matchTime with
        | some t => timeField t
        | none => timeField ⟨0, 0⟩) ++
      indexField r.nextRoute ++ indexField r.nextFamily ++ yesNo r.near) ++
    (bigEndian 1 r.logged ++ yesNo r.overrun) ++ indexField r.lane ++ r.routes.flatMap routeBlock

/-- What an answer carries after its code where a rule names its items: the items in the rule's order, in the widths of
R174. What the rules leave open of these replies is the model's choice (log 15). -/
def RepliesLaidOut : Prop :=
  Reply.bare.bytes = [] ∧
  (∀ (adv : Advisory) (id : Identity), (Reply.wrap adv id).bytes =
    [match adv.near, adv.down with
      | false, false => 0#8
      | true, false => 1#8
      | false, true => 2#8
      | true, true => 3#8] ++ identityField id) ∧
  (∀ (id : Identity) (d : Disposition) (rev : Bool),
    (Reply.duplicate id d rev).bytes = [0#8] ++ identityField id ++ [d.value] ++ yesNo rev) ∧
  (∀ r : LaneReport, (Reply.lane r).bytes = [r.part.value] ++ yesNo r.held ++ bigEndian 1 r.queued ++ [r.head.value] ++
    yesNo r.cutover ++ yesNo r.inFlight ++ yesNo r.near) ∧
  (∀ (held : Bool) (n : Nat), (Reply.hold held n).bytes = yesNo held ++ bigEndian 1 n) ∧
  (∀ st : TerminalState, (Reply.terminalState st).bytes = [st.value]) ∧
  (∀ (e : Terminal) (flight : Bool), (Reply.terminal e flight).bytes =
    [e.state.value] ++ bigEndian 1 e.lane.val ++ bigEndian 1 e.route.val ++ bigEndian 1 e.family.val ++
      bigEndian 1 e.fraction ++ packed 6 e.floor ++ bigEndian 1 e.history.length ++
      (e.history.flatMap fun h => bigEndian 2 h.till ++ [h.kind.value] ++ packed 6 h.amount ++ identityField h.id ++
        [h.cls.value, h.disposition.value] ++ yesNo h.reversed ++ yesNo h.offline) ++
      totalsField e.totals ++ yesNo flight) ∧
  (∀ (f : FamilyNo) (n : Nat) (st : FamilyState),
    (Reply.loaded f n st).bytes = bigEndian 1 f.val ++ bigEndian 2 n ++ [st.value] ∧
    (Reply.rolled f n st).bytes = bigEndian 1 f.val ++ bigEndian 2 n ++ [st.value]) ∧
  (∀ r : FamilyReport, (Reply.family r).bytes =
    [r.state.value] ++ bigEndian 2 r.generation ++ bigEndian 2 r.epoch ++ bigEndian 3 r.counter ++
      bigEndian 3 r.ceiling ++ bigEndian 3 r.low ++ yesNo r.rollAtCutover ++ [r.op.value] ++ yesNo r.rootPresent ++
      bigEndian 3 r.remaining ++ yesNo r.inFlight ++ bigEndian 1 r.terminals) ∧
  (∀ n : Nat, (Reply.acked n).bytes = bigEndian 1 n) ∧
  (∀ (n : Nat) (id : Identity), (Reply.ackedOldest n id).bytes = bigEndian 1 n ++ identityField id) ∧
  (∀ id : Identity, (Reply.closed id).bytes = [1#8] ++ identityField id) ∧
  (∀ w : CloseWait, (Reply.closeWaits none w).bytes = [2#8, w.value] ∧
    ∀ why : CloseReason, (Reply.closeWaits (some why) w).bytes = [2#8, why.value, w.value]) ∧
  (∀ n : Nat, (Reply.staged n).bytes = bigEndian 2 n) ∧
  (∀ (e : FaultEntry) (left : Nat) (ov : Bool), (Reply.fault e left ov).bytes =
    [e.code.value] ++ timeField e.time ++ bigEndian 1 e.unit ++ bigEndian 1 left ++ yesNo ov) ∧
  ∀ ov : Bool, (Reply.noFault ov).bytes = yesNo ov

/-- The reply of ROUTE QUERY: the items of R100, R55, R115, R164 and R170 in their order, in the widths of R174; what the
rules leave open of it is the model's choice (log 15). -/
def RouteReplyLaidOut (r : RouteReport) : Prop :=
  let c := r.config
  let q := r.queue
  let a := r.account
  let d := r.dispatch
  (Reply.route r).bytes =
    (bigEndian 1 c.k ++ bigEndian 1 c.fraction ++ [c.rounding.value] ++ bigEndian 1 c.plus ++ bigEndian 1 c.minus ++
      bigEndian 1 c.init ++ bigEndian 1 c.window ++ bigEndian 1 c.tagStart ++ bigEndian 1 c.tagEnd ++
      bigEndian 1 c.timeout ++ bigEndian 2 c.highWater ++ packed 6 c.ceiling ++ yesNo c.allow) ++
    (bigEndian 2 q.batch ++ bigEndian 2 q.nextSeq ++ timeField q.opened ++ bigEndian 1 q.liveUsed ++
      bigEndian 2 q.storeUsed ++ bigEndian 1 q.liveRoom ++ bigEndian 2 q.ringRoom ++ bigEndian 2 q.storeRoom ++
      bigEndian 2 q.overflow ++ bigEndian 2 q.poolFree ++ [bufferValue q.buffer] ++
      (match q.pending with | some x => [x.1.value, x.2.value] | none => [0#8, 0#8]) ++ yesNo q.full ++
      bigEndian 2 q.nPending ++ bigEndian 1 q.nOffered ++ bigEndian 2 q.nAcked) ++
    (totalsField a.totals ++ packed 8 a.offline ++ yesNo a.overflow ++ packed 6 a.active ++ packed 6 a.pending) ++
    ([d.state.value, d.state.reasonValue] ++ bigEndian 1 d.e ++ bigEndian 2 d.tag ++
      (match d.timer with | .running n => [1#8] ++ bigEndian 1 n | .stopped => [0#8, 0#8]) ++
      (match d.stream with
        | some st => [1#8] ++ bigEndian 1 st.base ++ bigEndian 1 st.current ++ yesNo st.renew ++
            [linkValue st.link, st.corr]
        | none => [0#8, 0#8, 0#8, 0#8, 255#8, 0#8]) ++
      bigEndian 1 d.offered ++
      (match d.first with | some id => identityField id | none => [255#8, 0#8, 0#8, 0#8, 0#8])) ++
    yesNo r.ringLow ++ timeField r.clock ++ yesNo r.unset ∧
  [LinkId.lane 0, .lane 1, .lane 2, .lane 3, .dispatch, .service].map linkValue = [0#8, 1#8, 2#8, 3#8, 4#8, 5#8]

/-- The bodies of the messages the part sends: kind, correlation number, payload (R174 to R178). -/
def MessagesLaidOut : Prop :=
  (∀ (corr : Byte) (code : Code) (reply : Reply),
    (Message.answer corr code reply).body = [0x80#8, corr, code.value] ++ reply.bytes) ∧
  (∀ (corr : Byte) (r : RouteNo) (tag : Nat) (img : Image),
    (Message.offered corr r tag img).body = [0x81#8, corr] ++ bigEndian 1 r.val ++ bigEndian 1 tag ++ img.bytes) ∧
  (∀ (corr : Byte) (r : RouteNo) (n : Nat) (cause : EndCause),
    (Message.blockEnd corr r n cause).body = [0x82#8, corr] ++ bigEndian 1 r.val ++ bigEndian 1 n ++ [cause.value] ∧
    (Message.streamEnd corr r cause).body = [0x83#8, corr] ++ bigEndian 1 r.val ++ [cause.value]) ∧
  (∀ r : Record, RecordLaidOut r) ∧ (∀ c : CloseRecord, CloseLaidOut c) ∧
  (∀ r : StatusReport, StatusLaidOut r) ∧ RepliesLaidOut ∧ ∀ r : RouteReport, RouteReplyLaidOut r

/-- The line bytes of a frame, heard by a receiver from its start, give the frame's body; a receiver that has heard some
of them holds the frame's beginning and gives the body at the rest; and the body of a frame that carries a command
spells that command. The bytes of a frame are the start marker and the escaped length, body and CRC; over "123456789"
the CRC is 10,673. A request's body begins with its kind and correlation number. The body of every message the part
sends holds its fields in the order and widths of the spec's tables, numbers most significant byte first, digits packed.
Where the spec names a reply's items and no layout, what it leaves open is the model's choice (log 15). -/
def Obligations.FrameRoundTrip : Prop :=
  (NumbersRead ∧ FieldValues ∧ CodeValues ∧ RequestBodies ∧ MessagesLaidOut) ∧
  (∀ body : List Byte, frameOf body =
    126#8 :: (plainFrame body).flatMap fun b => if b = 126#8 ∨ b = 125#8 then [125#8, b ^^^ 32#8] else [b]) ∧
  crc [0x31#8, 0x32#8, 0x33#8, 0x34#8, 0x35#8, 0x36#8, 0x37#8, 0x38#8, 0x39#8] = 10673#16 ∧
  (∀ (largest : Nat) (body : List Byte), 2 ≤ body.length → body.length ≤ largest → body.length ≤ 65535 →
    Receiver.hearAll largest .hunting ((frameOf body).map LineChar.byte) = (.hunting, .complete body) ∧
    ∀ before rest : List LineChar, (frameOf body).map LineChar.byte = before ++ rest → before ≠ [] → rest ≠ [] →
      ∃ rx, Receiver.hearAll largest .hunting before = (rx, .nothing) ∧ rx.begins body = true ∧
        rx.hearAll largest rest = (.hunting, .complete body)) ∧
  ∀ (i : Instr) (l : LinkId) (body : List Byte), i.wf = true → i.frame = some (l, body) → decodeBody l body = some i

/-! ### Links -/

/-- LINK RESET and BREAK reset the link and tell its blocks; LINK RESET's DONE is the only entry left; BREAK_END sets the
receiver free. A link in break or a part without supply takes no LINK RESET, and BREAK and BREAK_END then write the line's
level alone. That the transmitter is idle at once is the model's choice (log 25); what a LINK RESET does whose body is too
large, or that meets a frame in progress, is its reading (log 12). -/
def Obligations.LinkResets : Prop :=
  (∀ (l : LinkId) (corr : Byte) (p : List Byte) (s : State),
    (s.supply = .on → (s.link l).receiver ≠ .inBreak → p.length + 2 ≤ largestBody l →
      ∃ t, exec (.linkReset l corr p) s = .next t ∧ LinkResetEffects s l t ∧ (t.link l).receiver = .hunting ∧
        (t.link l).queue = [.run (.answer corr .done .bare) []]) ∧
    (s.supply ≠ .on ∨ (s.link l).receiver = .inBreak → exec (.linkReset l corr p) s = .next s) ∧
    ∀ b, s.supply = .on → largestBody l < p.length + 2 →
      ((s.link l).receiver = .hunting ∧ b = s) ∨
        ((s.link l).receiver.begins (0x0F#8 :: corr :: p) = true ∧ b = s.freeReceiver l) ∨
        ((∃ taken esc, (s.link l).receiver = .receiving taken esc) ∧
          (s.link l).receiver.begins (0x0F#8 :: corr :: p) = false ∧ b = s.cutFrame l) →
      exec (.linkReset l corr p) s =
        .next (if (b.link l).queue.length < 32 then b.send l frameBadAnswer else b)) ∧
  (∀ (l : LinkId) (s : State),
    (s.supply = .on → (s.link l).receiver ≠ .inBreak →
      ∃ t, exec (.lineBreak l) s = .next t ∧ LinkResetEffects s l t ∧ (t.link l).receiver = .inBreak ∧
        (t.link l).queue = []) ∧
    (s.supply ≠ .on ∨ (s.link l).receiver = .inBreak →
      exec (.lineBreak l) s = .next (s.setLink l { s.link l with low := true }))) ∧
  ∀ (l : LinkId) (s : State),
    ((s.link l).receiver = .inBreak →
      exec (.lineBreakEnd l) s = .next (s.setLink l { s.link l with low := false, receiver := .hunting })) ∧
    ((s.link l).receiver ≠ .inBreak → exec (.lineBreakEnd l) s = .next (s.setLink l { s.link l with low := false }))

/-- What a byte taken into a frame comes to: more is awaited, or the length is out of range, or the frame is complete and
its CRC agrees or not (R151, R152). -/
def TakenAs (largest : Nat) (now : List Byte) (out : Receiver × Heard) : Prop :=
  let len := numberOf (now.take 2)
  (now.length < 2 → out = (.receiving now false, .nothing)) ∧
  (2 ≤ now.length →
    (len < 2 ∨ largest < len → out = (.hunting, .bad)) ∧
    (2 ≤ len → len ≤ largest →
      (now.length < len + 4 → out = (.receiving now false, .nothing)) ∧
      (len + 4 ≤ now.length →
        (bigEndian 2 (crc (now.take (len + 2))).toNat = now.drop (len + 2) →
          out = (.hunting, .complete ((now.drop 2).take len))) ∧
        (bigEndian 2 (crc (now.take (len + 2))).toNat ≠ now.drop (len + 2) → out = (.hunting, .bad)))))

/-- The receiver, character by character: HUNTING waits for the start marker; in RECEIVING a start marker, a bad escape
and a missing stop bit make the frame bad, any other byte is taken. A frame found bad is answered FRAME_BAD with
correlation number 0, unless 32 entries wait, and does nothing else; a frame of a kind the part does not take is
answered UNKNOWN_KIND. The model's own: that a bad frame at a full queue is discarded unanswered (its reading, log 10),
that a start marker rules over an escape before it (its reading, log 11), that a character without a stop bit is no
start marker whatever its value (its choice, log 32). -/
def Obligations.BadFramesAnswered : Prop :=
  (∀ largest : Nat,
    (∀ b : Byte, Receiver.hunting.hear largest (.byte b) = (if b = 126#8 then .receiving [] false else .hunting, .nothing)) ∧
    Receiver.hunting.hear largest .noStop = (.hunting, .nothing) ∧
    ∀ (taken : List Byte) (esc : Bool),
      (Receiver.receiving taken esc).hear largest .noStop = (.hunting, .bad) ∧
      (Receiver.receiving taken esc).hear largest (.byte 126#8) = (.receiving [] false, .bad) ∧
      (∀ b : Byte, b ≠ 126#8 → b ≠ 94#8 → b ≠ 93#8 →
        (Receiver.receiving taken true).hear largest (.byte b) = (.hunting, .bad)) ∧
      (Receiver.receiving taken false).hear largest (.byte 125#8) = (.receiving taken true, .nothing) ∧
      TakenAs largest (taken ++ [126#8]) ((Receiver.receiving taken true).hear largest (.byte 94#8)) ∧
      TakenAs largest (taken ++ [125#8]) ((Receiver.receiving taken true).hear largest (.byte 93#8)) ∧
      ∀ b : Byte, b ≠ 126#8 → b ≠ 125#8 →
        TakenAs largest (taken ++ [b]) ((Receiver.receiving taken false).hear largest (.byte b))) ∧
  (∀ (l : LinkId) (chars : List LineChar) (rx : Receiver) (s : State), s.supply = .on →
    (s.link l).receiver.hearAll (largestBody l) chars = (rx, .bad) →
    exec (.frameBad l chars) s = .next (s.setLink l
      { s.link l with
        receiver := rx
        queue :=
          if (s.link l).queue.length < 32 then (s.link l).queue ++ [.run (.answer 0#8 .frameBad .bare) []]
          else (s.link l).queue })) ∧
  ∀ (l : LinkId) (corr kind : Byte) (p : List Byte) (s : State), s.Hears l p.length → kind ∉ requestKinds →
    exec (.unknownKind l corr kind p) s = .next (s.answer l corr .unknownKind)

/-! ### Lanes -/

/-- The payload of a wrap request (R175). -/
def wrapPayload (t s1 s0 a b c d e f g n : Byte) (card : List Byte) : List Byte :=
  t :: s1 :: s0 :: a :: b :: c :: d :: e :: f :: g :: n :: card

/-- A wrap request that passes its arrival checks joins the back of its lane's intake queue and is not answered. -/
def Obligations.WrapRequestsQueued : Prop :=
  ∀ (i : LaneNo) (corr t s1 s0 a b c d e f g n : Byte) (card : List Byte) (tn : TerminalNo) (s : State),
    let p := wrapPayload t s1 s0 a b c d e f g n card
    let join := fun item => s.setLane i
      { s.lane i with queue := (s.lane i).queue ++ [⟨i, corr, item, tn, numberOf [s1, s0], card⟩] }
    s.Hears (.lane i) p.length → s.status.part = .running → t.toNat = tn.val → (s.term tn).state ≠ .vacant →
    (s.term tn).lane = i → 8 ≤ n.toNat → n.toNat ≤ 64 → card.length = n.toNat → (s.lane i).queue.length < 8 →
    exec (.auth (.lane i) corr p) s = .next (join (.auth a.toNat (nibblesOf [b, c, d, e, f, g]))) ∧
    exec (.refund (.lane i) corr p) s = .next (join (.refund a.toNat (nibblesOf [b, c, d, e, f, g]))) ∧
    exec (.reversal (.lane i) corr p) s = .next (join (.reversal (numberOf [a, b])))

/-- The refusals of a wrap request at arrival, in their order, with nothing queued. -/
def Obligations.ArrivalRefusals : Prop :=
  ∀ mk ∈ [Instr.auth, Instr.refund, Instr.reversal], ∀ (i : LaneNo) (corr : Byte) (p : List Byte) (s : State),
    let refusedAs := fun code => exec (mk (.lane i) corr p) s = .next (s.answer (.lane i) corr code)
    s.Hears (.lane i) p.length →
    (s.status.part ≠ .running → refusedAs .notRunning) ∧
    (s.status.part = .running →
      (p.length < 11 → refusedAs .cardShort) ∧
      ∀ (t s1 s0 a b c d e f g n : Byte) (card : List Byte), p = wrapPayload t s1 s0 a b c d e f g n card →
        (64 ≤ t.toNat → refusedAs .terminalRange) ∧
        ∀ tn : TerminalNo, t.toNat = tn.val →
          ((s.term tn).state = .vacant → refusedAs .terminalVacant) ∧
          ((s.term tn).state ≠ .vacant →
            ((s.term tn).lane ≠ i → refusedAs .wrongLane) ∧
            ((s.term tn).lane = i →
              (n.toNat < 8 ∨ 64 < n.toNat → refusedAs .cardLength) ∧
              (8 ≤ n.toNat → n.toNat ≤ 64 →
                (card.length < n.toNat → refusedAs .cardShort) ∧
                (n.toNat < card.length → refusedAs .cardLong) ∧
                (card.length = n.toNat → 8 ≤ (s.lane i).queue.length → refusedAs .busy)))))

/-- HOLD LANE and RELEASE LANE write the hold of the lane they name and change nothing else; a lane number above 3 is
refused. SET CEILING writes the pending ceiling of a defined route and leaves the active one; a route number above 3 or a
digit above 9 is refused. -/
def Obligations.HoldsAndCeilings : Prop :=
  (∀ (l : LinkId) (corr b : Byte) (s : State), s.Hears l 1 → isPartner l = true → s.status.part = .running →
     (∀ i : LaneNo, b.toNat = i.val →
       exec (.holdLane l corr [b]) s =
         .next ((s.setLane i { s.lane i with held := true }).answer l corr .done (.hold true (s.lane i).queue.length)) ∧
       exec (.releaseLane l corr [b]) s =
         .next ((s.setLane i { s.lane i with held := false }).answer l corr .done
           (.hold false (s.lane i).queue.length))) ∧
     (4 ≤ b.toNat →
       exec (.holdLane l corr [b]) s = .next (s.answer l corr .badParameter) ∧
       exec (.releaseLane l corr [b]) s = .next (s.answer l corr .badParameter))) ∧
  (∀ (l : LinkId) (corr b : Byte) (digits : List Byte) (v : Nat) (r : RouteNo) (s : State), s.Hears l 7 →
     isPartner l = true → s.status.part = .running → digits.length = 6 → b.toNat = r.val → packedOf digits = some v →
     (s.defined r = true → exec (.setCeiling l corr (b :: digits)) s =
       .next ((s.setAccount r { s.account r with pending := v }).answer l corr .done)) ∧
     (s.defined r = false → exec (.setCeiling l corr (b :: digits)) s = .next (s.answer l corr .routeUndefined))) ∧
  ∀ (l : LinkId) (corr b : Byte) (digits : List Byte) (s : State), s.Hears l 7 → isPartner l = true →
    s.status.part = .running → digits.length = 6 → 4 ≤ b.toNat ∨ (∃ x ∈ nibblesOf digits, 9 < x) →
    exec (.setCeiling l corr (b :: digits)) s = .next (s.answer l corr .badParameter)

/-- The head's terminal names a family that is LOADING or ROLLING (R64 condition 4). -/
def FamilyWaits (s : State) (q : Request) : Prop :=
  (s.term q.terminal).state ≠ .vacant ∧
  ((s.family (s.term q.terminal).family).now.state = .loading ∨ (s.family (s.term q.terminal).family).now.state = .rolling)

/-- The number of a route's data records in a state (R100). -/
def recordsIn (s : State) (r : RouteNo) (st : RecordState) : Nat :=
  (s.slotsOf r).countP fun n =>
    match s.at? n with
    | some rec => rec.state == st
    | none => false

/-- The items of ROUTE QUERY (R100, R115, R170). -/
def reportedRoute (s : State) (r : RouteNo) (c : RouteConfig) : RouteReport :=
  let q := s.queue r
  let d := s.route r
  { config := c
    queue :=
      ⟨q.batch, q.nextSeq, q.opened, q.live.bottom - q.live.top, q.store.bottom - q.store.top, s.liveRoom r, s.ringRoom r,
        s.storeRoom r, q.overflow.length, s.qm.poolFree.length, q.buffer.map (·.state),
        q.pending.map fun p => (p.reason, p.wait), q.full, recordsIn s r .pending, recordsIn s r .offered,
        recordsIn s r .acked⟩
    account := s.account r
    dispatch := ⟨d.state, d.e, d.tag, d.timer, d.stream, d.offered.length, d.offered.head?⟩
    ringLow := decide (s.ringRoom r ≤ c.highWater)
    clock := s.cutover.clock
    unset := s.cutover.unset }

/-- The queries answer DONE with their report and change nothing else; an answer joins the end of its link's response
queue. LANE STATUS reads the head state from the lane's hold and the family of its head. FAMILY QUERY reports of the
root only whether one is present. That the counts of ROUTE QUERY are of data records alone is the model's reading (log
16). -/
def Obligations.QueriesOnlyAnswer : Prop :=
  (∀ (s : State) (l : LinkId) (corr : Byte) (code : Code) (reply : Reply), s.answer l corr code reply =
    s.setLink l { s.link l with queue := (s.link l).queue ++ [.run (.answer corr code reply) []] }) ∧
  (∀ (s : State) (l : LinkId) (m : Message) (e : QueueEntry), (s.link l).push e =
      { s.link l with queue := (s.link l).queue ++ [e] } ∧
    s.enqueue l e = s.setLink l ((s.link l).push e) ∧ s.send l m = s.enqueue l (.run m [])) ∧
  (∀ (k : ReservationKept) (w : ReservationWork) (i : LaneNo) (t : TerminalNo) (f : FamilyNo) (r : RouteNo),
    ((Engine.busy k w).servesLane i = true ↔ w.lane = i) ∧ ((Engine.busy k w).servesTerminal t = true ↔ w.terminal = t) ∧
    ((Engine.busy k w).servesFamily f = true ↔ k.key.family = f) ∧ ((Engine.busy k w).servesRoute r = true ↔ k.route = r) ∧
    Engine.idle.servesLane i = false ∧ Engine.idle.servesTerminal t = false ∧ Engine.idle.servesFamily f = false ∧
    Engine.idle.servesRoute r = false) ∧
  (∀ (s : State) (i : LaneNo),
    ((s.lane i).queue = [] → s.headState i = .noHead) ∧
    ∀ q rest, (s.lane i).queue = q :: rest →
      ((s.lane i).held = true → s.headState i = .laneHeld) ∧
      ((s.lane i).held = false → FamilyWaits s q → s.headState i = .familyBusy) ∧
      ((s.lane i).held = false → ¬ FamilyWaits s q → s.headState i = .eligible)) ∧
  (∀ (i : LaneNo) (corr : Byte) (p : List Byte) (s : State), s.Hears (.lane i) p.length →
    exec (.laneStatus (.lane i) corr p) s = .next (s.answer (.lane i) corr .done (.lane
      { part := s.status.part
        held := (s.lane i).held
        queued := (s.lane i).queue.length
        head := s.headState i
        cutover := s.cutover.stage != .idle
        inFlight := s.engine.servesLane i
        near := s.cutover.near }))) ∧
  ∀ (l : LinkId) (corr b : Byte) (s : State), s.Hears l 1 → isPartner l = true →
    (∀ t : TerminalNo, b.toNat = t.val →
      exec (.terminalQuery l corr [b]) s =
        .next (s.answer l corr .done (.terminal (s.term t) (s.engine.servesTerminal t)))) ∧
    (∀ f : FamilyNo, b.toNat = f.val →
      exec (.familyQuery l corr [b]) s = .next (s.answer l corr .done (.family
        { state := (s.family f).now.state
          generation := (s.family f).now.generation
          epoch := (s.family f).now.epoch
          counter := (s.family f).now.counter
          ceiling := (s.family f).now.ceiling
          low := (s.family f).now.low
          rollAtCutover := (s.family f).now.rollAtCutover
          op := (s.family f).op
          rootPresent := (s.family f).now.root.isSome
          remaining := (s.family f).now.ceiling - (s.family f).now.counter
          inFlight := s.engine.servesFamily f
          terminals :=
            (List.finRange 64).countP fun t => decide ((s.term t).state ≠ .vacant ∧ (s.term t).family = f) }))) ∧
    (∀ (r : RouteNo) (c : RouteConfig), b.toNat = r.val → s.config r = some c →
      exec (.routeQuery l corr [b]) s = .next (s.answer l corr .done (.route (reportedRoute s r c)))) ∧
    (∀ r : RouteNo, b.toNat = r.val → s.config r = none →
      exec (.routeQuery l corr [b]) s = .next (s.answer l corr .routeUndefined)) ∧
    (64 ≤ b.toNat →
      exec (.terminalQuery l corr [b]) s = .next (s.answer l corr .terminalRange)) ∧
    (8 ≤ b.toNat → exec (.familyQuery l corr [b]) s = .next (s.answer l corr .badParameter)) ∧
    (4 ≤ b.toNat → exec (.routeQuery l corr [b]) s = .next (s.answer l corr .badParameter))

/-! ### Grants -/

/-- A head is eligible when its lane is not held, the engine is IDLE, the cut-over IDLE and the part RUNNING, and its
terminal's family is neither LOADING nor ROLLING. The lane granted has an eligible head, an urgent one where any is, and
is the first of its class in rotation order; with no eligible head GRANT changes nothing. -/
def Obligations.GrantOrder : Prop :=
  (∀ (s : State) (i : LaneNo), s.eligible i = true ↔
    (s.lane i).held = false ∧ s.engine = .idle ∧ s.cutover.stage = .idle ∧ s.status.part = .running ∧
    ∃ q rest, (s.lane i).queue = q :: rest ∧ ¬ FamilyWaits s q) ∧
  (∀ (s : State) (i : LaneNo), s.urgentHead i = true ↔
    ∃ q rest original, (s.lane i).queue = q :: rest ∧ q.item = .reversal original) ∧
  (∀ (s : State) (i : LaneNo), s.grantLane = some i →
    s.eligible i = true ∧ ((∃ j, s.eligible j = true ∧ s.urgentHead j = true) → s.urgentHead i = true) ∧
    ∀ j, s.eligible j = true → s.urgentHead j = s.urgentHead i → j ≠ i →
      searchPlace s.intake.rotation i < searchPlace s.intake.rotation j) ∧
  (∀ s : State, s.grantLane = none ↔ ∀ j, s.eligible j = false) ∧
  ∀ s : State, s.grantLane = none → exec .grant s = .next s

/-- The intake after a grant of lane i: its head gone, the pointer at i. -/
def grantedIntake (s : State) (i : LaneNo) (rest : List Request) : State :=
  { s with intake := { lanes := Vec.put s.intake.lanes i { s.lane i with queue := rest }, rotation := i } }

/-- A grant that ends at a refusal or at DUPLICATE is answered at once; the head leaves its queue, the pointer takes the
lane, and nothing else changes. -/
def Obligations.GrantRefusals : Prop :=
  ∀ (s : State) (i : LaneNo) (q : Request) (rest : List Request), s.supply = .on → s.grantLane = some i →
    (s.lane i).queue = q :: rest →
    (∀ code, s.grantChecks q = .refused code →
      exec .grant s = .next ((grantedIntake s i rest).answer (.lane q.lane) q.corr code)) ∧
    (∀ h, s.grantChecks q = .duplicate h →
      exec .grant s =
        .next ((grantedIntake s i rest).answer (.lane q.lane) q.corr .duplicate (.duplicate h.id h.disposition h.reversed)))

/-- A request passes checks 1 to 4 of the grant with a kind, an amount and a reference: its terminal is ACTIVE, its till
sequence is new, and it is a REVERSAL of a reversible original that is not PENDING, or an AUTH or REFUND with a good
amount (R76 to R79). -/
def PassesFour (s : State) (q : Request) (kind : WrapKind) (a : Nat) (ref : Option Reference) : Prop :=
  let e := s.term q.terminal
  e.state = .active ∧ e.history.find? (fun h => h.till == q.till) = none ∧
  ((kind = .reversal ∧ ∃ original h, q.item = .reversal original ∧
      e.history.find? (fun h => h.till == original) = some h ∧ h.kind = .auth ∧ h.reversed = false ∧
      h.disposition ≠ .voided ∧ h.id.batch = (s.queue e.route).batch ∧ h.disposition ≠ .pending ∧ a = h.amount ∧
      ref = some ⟨h.id, h.till⟩) ∨
    ∃ count nibbles c, ((q.item = .auth count nibbles ∧ kind = .auth) ∨ (q.item = .refund count nibbles ∧ kind = .refund)) ∧
      s.config e.route = some c ∧ amountCheck count nibbles e.fraction c = .ok a ∧ ref = none)

/-- Check 6: the class and the offline flag of a wrap that passes it (R45, R81). -/
def ClassDecided (s : State) (e : Terminal) (kind : WrapKind) (a : Nat) (cls : RecordClass) (offline : Bool) : Prop :=
  (kind ≠ .refund ∧ (s.route e.route).state = .up ∧ cls = .live ∧ offline = false) ∨
  (kind = .auth ∧ (s.route e.route).state ≠ .up ∧ a ≤ e.floor ∧
    (s.account e.route).offline + a ≤ (s.account e.route).active ∧ cls = .store ∧ offline = true) ∨
  ((kind = .refund ∨ (kind = .reversal ∧ (s.route e.route).state ≠ .up)) ∧ cls = .store ∧ offline = false)

/-- The room of a route (R100). -/
def RoomComputed (s : State) (r : RouteNo) : Prop :=
  let q := s.queue r
  (∀ k w pos, s.engine = .busy k w → k.route = r → k.slot = .live pos →
    s.liveRoom r = 16 - (q.live.bottom - q.live.top) - 1) ∧
  ((∀ k w pos, s.engine = .busy k w → k.route = r → k.slot ≠ .live pos) →
    s.liveRoom r = 16 - (q.live.bottom - q.live.top)) ∧
  ∀ c, s.config r = some c →
    (∀ k w pos, s.engine = .busy k w → k.route = r → k.slot = .store pos →
      s.ringRoom r = 2 ^ c.k - (q.store.bottom - q.store.top) - 1) ∧
    ((∀ k w pos, s.engine = .busy k w → k.route = r → k.slot ≠ .store pos) →
      s.ringRoom r = 2 ^ c.k - (q.store.bottom - q.store.top)) ∧
    (q.overflow = [] → s.storeRoom r = s.ringRoom r + (if c.allow = true then s.qm.poolFree.length else 0)) ∧
    (q.overflow ≠ [] → s.storeRoom r = s.qm.poolFree.length)

/-- Check 7 finds no room for a class (R82). -/
def NoRoom (s : State) (r : RouteNo) (cls : RecordClass) : Prop :=
  (cls = .live ∧ s.liveRoom r = 0) ∨ (cls = .store ∧ s.storeRoom r = 0)

/-- Check 7: the slot for a class; a STORE record goes into the ring while the overflow part is empty and the ring has
room, else into the pool (R82, R97, R101). -/
def SlotChosen (s : State) (r : RouteNo) (c : RouteConfig) (cls : RecordClass) (slot : ReservedSlot) : Prop :=
  (cls = .live ∧ s.liveRoom r ≠ 0 ∧ slot = .live (s.queue r).live.bottom) ∨
  (cls = .store ∧ (s.queue r).overflow = [] ∧ s.ringRoom r ≠ 0 ∧ slot = .store (s.queue r).store.bottom) ∨
  (cls = .store ∧ ((s.queue r).overflow ≠ [] ∨ (s.ringRoom r = 0 ∧ c.allow = true)) ∧
    ∃ n free, s.qm.poolFree = n :: free ∧ slot = .pool n)

/-- The outcome of the grant checks, the first that fails giving the code: terminal state, the duplicate test, the
original of a REVERSAL, the amount of an AUTH or REFUND; then for every kind batch-full, class, room for both classes
and family, or the plan of the wrap. Room is computed from occupancy and reservation. On a route that is not defined
check 4 tests the form of the amount field alone, and a VOIDED original is refused, as the model reads them (log 22). -/
def Obligations.GrantChecksInOrder : Prop :=
  (∀ (s : State) (r : RouteNo), RoomComputed s r) ∧
  (∀ (s : State) (q : Request),
     let e := s.term q.terminal
     (e.state = .vacant → s.grantChecks q = .refused .terminalVacant) ∧
     (e.state = .held → s.grantChecks q = .refused .terminalHeld) ∧
     (e.state = .closing → s.grantChecks q = .refused .terminalClosing) ∧
     (e.state = .active →
       (∀ h, e.history.find? (fun h => h.till == q.till) = some h → s.grantChecks q = .duplicate h) ∧
       (e.history.find? (fun h => h.till == q.till) = none →
         (∀ original, q.item = .reversal original →
           (e.history.find? (fun h => h.till == original) = none → s.grantChecks q = .refused .notFound) ∧
           ∀ h, e.history.find? (fun h => h.till == original) = some h →
             (h.kind ≠ .auth → s.grantChecks q = .refused .notReversible) ∧
             (h.kind = .auth → h.reversed = true ∨ h.disposition = .voided →
               s.grantChecks q = .refused .alreadyReversed) ∧
             (h.kind = .auth → h.reversed = false → h.disposition ≠ .voided →
               (h.id.batch ≠ (s.queue e.route).batch → s.grantChecks q = .refused .stale) ∧
               (h.id.batch = (s.queue e.route).batch → h.disposition = .pending → s.grantChecks q = .withdraw h))) ∧
         ∀ count nibbles, q.item = .auth count nibbles ∨ q.item = .refund count nibbles →
           (∀ c, s.config e.route = some c → ∀ code, amountCheck count nibbles e.fraction c = .error code →
             s.grantChecks q = .refused code) ∧
           (s.config e.route = none →
             (amountValue count nibbles = none → s.grantChecks q = .refused .amountFormat) ∧
             (∀ v, amountValue count nibbles = some v → s.grantChecks q = .refused .routeUndefined))))) ∧
  ∀ (s : State) (q : Request) (kind : WrapKind) (a : Nat) (ref : Option Reference), PassesFour s q kind a ref →
    let e := s.term q.terminal
    (s.config e.route = none → s.grantChecks q = .refused .routeUndefined) ∧
    ∀ c, s.config e.route = some c →
      ((s.queue e.route).full = true → s.grantChecks q = .refused .batchFull) ∧
      ((s.queue e.route).full = false →
        (kind = .auth → (s.route e.route).state ≠ .up →
          (e.floor < a → s.grantChecks q = .refused .routeDown) ∧
          (a ≤ e.floor → (s.account e.route).active < (s.account e.route).offline + a →
            s.grantChecks q = .refused .offlineLimit)) ∧
        ∀ cls offline, ClassDecided s e kind a cls offline →
          (NoRoom s e.route cls →
            s.grantChecks q = .refused (match cls with | .live => .liveFull | .store => .storeFull)) ∧
          ∀ slot, SlotChosen s e.route c cls slot →
            ((s.family e.family).now.state = .exhausted → s.grantChecks q = .refused .keyExhausted) ∧
            ((s.family e.family).now.state ≠ .active → (s.family e.family).now.state ≠ .low →
              (s.family e.family).now.state ≠ .exhausted → s.grantChecks q = .refused .keyUnavailable) ∧
            ((s.family e.family).now.state = .active ∨ (s.family e.family).now.state = .low →
              s.grantChecks q = .wrap ⟨kind, e.route, cls, offline, a, c.fraction, ref, slot, e.family⟩))

/-- Check 4: the amount field read, normalised and tested (log 22 names the route that is not defined). What each kind
of completion adds to eight totals, a sum held at its limit, and when it saturates. -/
def Obligations.AmountsAndTotals : Prop :=
  (∀ (count : Nat) (nibbles : List Nat) (d : Nat) (c : RouteConfig),
     let ds := nibbles.drop (12 - count)
     let v := decimal ds
     (count = 0 ∨ 12 < count ∨ (∃ x ∈ ds, 9 < x) → amountCheck count nibbles d c = .error .amountFormat) ∧
     (1 ≤ count → count ≤ 12 → (∀ x ∈ ds, x ≤ 9) →
       ∀ a : Nat,
         (d ≤ c.fraction → a = v * 10 ^ (c.fraction - d)) →
         (c.fraction < d → c.rounding = .down → a = v / 10 ^ (d - c.fraction)) →
         (c.fraction < d → c.rounding = .halfUp →
           a = v / 10 ^ (d - c.fraction) +
             (if 10 ^ (d - c.fraction) ≤ 2 * (v % 10 ^ (d - c.fraction)) then 1 else 0)) →
         (a = 0 → amountCheck count nibbles d c = .error .amountZero) ∧
         (Config.maxAmount < a → amountCheck count nibbles d c = .error .amountRange) ∧
         (1 ≤ a → a ≤ Config.maxAmount → amountCheck count nibbles d c = .ok a))) ∧
  (∀ (t : Totals) (a : Nat),
     t.add .sale a = { t with sale := min (t.sale + a) 999999999999999, saleCount := t.saleCount + 1 } ∧
     t.add .offlineSale a =
       { t with
         sale := min (t.sale + a) 999999999999999
         saleCount := t.saleCount + 1
         offlineCount := t.offlineCount + 1 } ∧
     t.add .refund a = { t with refund := min (t.refund + a) 999999999999999, refundCount := t.refundCount + 1 } ∧
     t.add .reversal a =
       { t with reversal := min (t.reversal + a) 999999999999999, reversalCount := t.reversalCount + 1 } ∧
     t.add .withdrawal a =
       { t with
         reversal := min (t.reversal + a) 999999999999999
         reversalCount := t.reversalCount + 1
         voidCount := t.voidCount + 1 } ∧
     (t.saturated .sale a = true ↔ 999999999999999 < t.sale + a) ∧
     (t.saturated .offlineSale a = true ↔ 999999999999999 < t.sale + a) ∧
     (t.saturated .refund a = true ↔ 999999999999999 < t.refund + a) ∧
     (t.saturated .reversal a = true ↔ 999999999999999 < t.reversal + a) ∧
     (t.saturated .withdrawal a = true ↔ 999999999999999 < t.reversal + a))

/-- A grant that passes its checks reserves the slot and a counter, captures batch and time, and makes the engine BUSY;
the family becomes EXHAUSTED or LOW as its counter says, with the event raised. -/
def Obligations.GrantReserves : Prop :=
  ∀ (s : State) (i : LaneNo) (q : Request) (rest : List Request) (p : WrapPlan), s.supply = .on →
    s.grantLane = some i → (s.lane i).queue = q :: rest → s.grantChecks q = .wrap p →
    let k := (s.family p.family).now
    ∃ t k' w, exec .grant s = .next t ∧
      t.engine = .busy ⟨p.route, (s.queue p.route).batch, p.slot, ⟨p.family, k.generation, k.epoch, k.counter⟩⟩ w ∧
      w.lane = q.lane ∧ w.corr = q.corr ∧ w.kind = p.kind ∧ w.terminal = q.terminal ∧ w.till = q.till ∧
      w.cls = p.cls ∧ w.offline = p.offline ∧ w.amount = p.amount ∧ w.fraction = p.fraction ∧ w.stamp = s.time ∧
      w.ref = p.ref ∧ (p.kind ≠ .reversal → w.card = q.card) ∧ w.discarded = false ∧
      t.keys = { s.keys with families := Vec.put s.keys.families p.family { s.family p.family with now := k' } } ∧
      k' = { k with counter := k.counter + 1, state := k'.state } ∧
      (k.counter + 1 = k.ceiling → k'.state = .exhausted) ∧
      (k.counter + 1 ≠ k.ceiling → k.state = .active → k.ceiling - (k.counter + 1) ≤ k.low → k'.state = .low) ∧
      (k.counter + 1 ≠ k.ceiling → k.state ≠ .active ∨ k.low < k.ceiling - (k.counter + 1) → k'.state = k.state) ∧
      t.status = (s.status.raiseIf (decide (k.counter + 1 = k.ceiling)) .keyExhausted).raiseIf
        (decide (k.counter + 1 ≠ k.ceiling ∧ k.state = .active ∧ k.ceiling - (k.counter + 1) ≤ k.low)) .keyLow ∧
      t.intake = (grantedIntake s i rest).intake ∧
      t.qm.slots = s.qm.slots ∧ t.qm.queues = s.qm.queues ∧
      (∀ n free, p.slot = .pool n → s.qm.poolFree = n :: free → t.qm.poolFree = free) ∧
      ((∀ n, p.slot ≠ .pool n) → t.qm.poolFree = s.qm.poolFree) ∧
      t.links = s.links ∧ t.terminals = s.terminals ∧ t.accounts = s.accounts ∧ t.dispatch = s.dispatch ∧
      t.cutover = s.cutover ∧ t.supply = s.supply ∧ t.valid = s.valid

/-- A withdrawal turns the original into a VOID record where it stands, adds to the totals, writes the two history entries
and answers WITHDRAWN; no slot, counter or sequence is taken. -/
def Obligations.WithdrawalVoidsInPlace : Prop :=
  ∀ (s : State) (i : LaneNo) (q : Request) (rest : List Request) (h : HistoryEntry) (n : Nat) (rec : Record),
    s.supply = .on → s.grantLane = some i → (s.lane i).queue = q :: rest → s.grantChecks q = .withdraw h →
    s.slotOf (s.term q.terminal).route h.id = some n → s.at? n = some rec →
    let e := s.term q.terminal
    let acc := s.account e.route
    ∃ t, exec .grant s = .next t ∧
      t.qm = { s.qm with slots := (Store.put s.qm.slots n
        { rec with kind := .void, card := none, till := q.till, ref := some ⟨h.id, h.till⟩ }) } ∧
      t.at? n = some { rec with kind := .void, card := none, till := q.till, ref := some ⟨h.id, h.till⟩ } ∧
      (∀ m, m ≠ n → t.at? m = s.at? m) ∧
      t.accounts = Vec.put s.accounts e.route
        { acc with
          totals := { acc.totals with
            reversal := min (acc.totals.reversal + h.amount) Config.maxSum
            reversalCount := acc.totals.reversalCount + 1
            voidCount := acc.totals.voidCount + 1 }
          overflow := acc.overflow || decide (Config.maxSum < acc.totals.reversal + h.amount) ||
            decide (Config.maxSum < e.totals.reversal + h.amount) } ∧
      t.terminals = Vec.put s.terminals q.terminal
        { e with
          totals := { e.totals with
            reversal := min (e.totals.reversal + h.amount) Config.maxSum
            reversalCount := e.totals.reversalCount + 1
            voidCount := e.totals.voidCount + 1 }
          history := (⟨q.till, .reversal, h.amount, h.id, h.cls, .pending, false, false⟩ ::
            e.history.map fun x =>
              if x.till = h.till then { x with reversed := true, disposition := .voided } else x).take 8 } ∧
      t.link (.lane q.lane) = (s.link (.lane q.lane)).push (.run (.answer q.corr .withdrawn
        (.wrap ⟨s.cutover.near, (s.route e.route).state != .up⟩ h.id)) []) ∧
      (∀ m, m ≠ .lane q.lane → t.link m = s.link m) ∧
      t.status = s.status.raiseIf (!acc.overflow && (decide (Config.maxSum < acc.totals.reversal + h.amount) ||
        decide (Config.maxSum < e.totals.reversal + h.amount))) .totalOverflow ∧
      t.intake = (grantedIntake s i rest).intake ∧ t.engine = s.engine ∧ t.keys = s.keys ∧ t.dispatch = s.dispatch ∧
      t.cutover = s.cutover ∧ t.supply = s.supply ∧ t.valid = s.valid

/-! ### Completions -/

/-- The slot a reservation names (R96, R99). -/
def reservedSlot (s : State) (k : ReservationKept) : Nat :=
  match k.slot with
  | .live pos => 16 * k.route.val + pos % 16
  | .store pos => (s.storePlace k.route).slot pos
  | .pool n => n

/-- What a wrap's completion is for the totals (R49). -/
def completedAs (w : ReservationWork) : Completed :=
  match w.kind with
  | .auth => if w.offline then .offlineSale else .sale
  | .refund => .refund
  | .reversal => .reversal

/-- A completion's own effect, apart from the close that may fall due at it (R88 to R90): the record written and
appended, the offer points set, totals and history added to, the lane answered, the engine IDLE, and the events raised.
-/
def CompletedTo (s : State) (k : ReservationKept) (w : ReservationWork) (t : State) : Prop :=
  let id : Identity := ⟨k.route, k.batch, (s.queue k.route).nextSeq⟩
  let e := s.term w.terminal
  let acc := s.account k.route
  let q := s.queue k.route
  let n := reservedSlot s k
  let saturates := acc.totals.saturated (completedAs w) w.amount || e.totals.saturated (completedAs w) w.amount
  t.engine = .idle ∧
  (∃ card,
    (let now : Record := ⟨w.kind.recordKind, w.cls, .pending, id, w.terminal, w.till, w.stamp, k.key, w.offline, 0,
        w.fraction, w.amount, card, w.ref⟩;
      t.qm.slots = Store.put s.qm.slots n now ∧ t.at? n = some now ∧ ∀ m, m ≠ n → t.at? m = s.at? m) ∧
    (w.kind = .reversal → card = none) ∧
    (w.kind ≠ .reversal → ∃ data, card = some ⟨data, data.length - w.card.length⟩ ∧
      data.length = (w.card.length + 15) / 16 * 16)) ∧
  [WrapKind.auth, .refund, .reversal].map WrapKind.recordKind = [.auth, .refund, .reversal] ∧
  t.qm.poolFree = s.qm.poolFree ∧ (∀ r, r ≠ k.route → t.queue r = s.queue r) ∧
  (let q' := t.queue k.route;
    q' = { q with nextSeq := q.nextSeq + 1, live := q'.live, store := q'.store, overflow := q'.overflow } ∧
    q'.live.top = q.live.top ∧ q'.store.top = q.store.top ∧
    AtFirstPending q'.live (livePlace k.route) t.qm.slots ∧
    AtFirstPending q'.store (s.storePlace k.route) t.qm.slots ∧
    (∀ pos, k.slot = .live pos → q'.live.bottom = q.live.bottom + 1) ∧
    ((∀ pos, k.slot ≠ .live pos) → q'.live.bottom = q.live.bottom) ∧
    (∀ pos, k.slot = .store pos → q'.store.bottom = q.store.bottom + 1) ∧
    ((∀ pos, k.slot ≠ .store pos) → q'.store.bottom = q.store.bottom) ∧
    (∀ n, k.slot = .pool n → q'.overflow = q.overflow ++ [n]) ∧
    ((∀ n, k.slot ≠ .pool n) → q'.overflow = q.overflow) ∧
    t.status = (s.status.raiseIf (w.cls == .store &&
      (match s.config k.route with
        | some c => decide (2 ^ c.k - (q'.store.bottom - q'.store.top) ≤ c.highWater)
        | none => false)) .storeHigh).raiseIf (saturates && !acc.overflow) .totalOverflow) ∧
  t.accounts = Vec.put s.accounts k.route
    { acc with
      totals := acc.totals.add (completedAs w) w.amount
      offline := acc.offline + (if w.kind = .auth ∧ w.offline = true then w.amount else 0)
      overflow := acc.overflow || saturates } ∧
  t.terminals = Vec.put s.terminals w.terminal
    { e with
      totals := e.totals.add (completedAs w) w.amount
      history := (⟨w.till, w.kind, w.amount, id, w.cls, .pending, false, w.offline⟩ ::
        (match w.ref with
          | some ref => e.history.map fun h => if h.till = ref.till then { h with reversed := true } else h
          | none => e.history)).take 8 } ∧
  (w.discarded = false → t.link (.lane w.lane) = (s.link (.lane w.lane)).push (.run (.answer w.corr
    (if w.offline then .offlineAccepted else .wrapped)
    (.wrap ⟨s.cutover.near, (s.route k.route).state != .up⟩ id)) [])) ∧
  (w.discarded = true → t.links = s.links) ∧ (∀ m, m ≠ .lane w.lane → t.link m = s.link m) ∧
  t.intake = s.intake ∧ t.keys = s.keys ∧ t.dispatch = s.dispatch ∧ t.cutover = s.cutover ∧ t.supply = s.supply ∧
  t.valid = s.valid ∧ t.pending = s.pending

/-- A completion at which no close can be performed (none is pending, or the close buffer is busy) and that does not
take the last sequence has its own effect and no other: the record written, appended and counted, totals and history
added to, the lane answered unless the answer is discarded, the engine IDLE; the batch carries on under a pending close.
STORE_HIGH is raised for a STORE record that leaves the ring room at or below the high-water room, TOTAL_OVERFLOW at the
first saturation of the batch, and no other event. -/
def Obligations.CompletionMakesRecord : Prop :=
  ∀ (s : State) (k : ReservationKept) (w : ReservationWork), s.supply = .on → s.engine = .busy k w →
    (s.queue k.route).pending = none ∨ (s.queue k.route).buffer ≠ none → (s.queue k.route).nextSeq ≠ 65534 →
    ∃ t, exec .completion s = .next t ∧ CompletedTo s k w t

/-- A completion that meets a close due first has its own effect and then, on the state that leaves, performs the close:
the one that waited, with reason DEFERRED under its mark, or at the last sequence that of the full batch. Where the
buffer is busy the last sequence sets the batch-full flag, and makes a close pending with CLOSE_DEFERRED raised and
logged where none was. That a pending close is performed on a FREE buffer whatever its wait is the model's reading (log
30). -/
def Obligations.CompletionCloses : Prop :=
  ∀ (s : State) (k : ReservationKept) (w : ReservationWork), s.supply = .on → s.engine = .busy k w →
    let q := s.queue k.route
    ∃ u, CompletedTo s k w u ∧
      (∀ p, q.pending = some p → q.buffer = none →
        exec .completion s = .next (u.performClose k.route (if p.deferred then .deferred else p.reason))) ∧
      (q.pending = none → q.buffer = none → q.nextSeq = 65534 →
        exec .completion s = .next (u.performClose k.route .batchFull)) ∧
      (q.buffer ≠ none → q.nextSeq = 65534 →
        let marked := u.setQueue k.route { u.queue k.route with full := true }
        (∀ p, q.pending = some p → exec .completion s = .next marked) ∧
        (q.pending = none → exec .completion s = .next
          (((marked.setQueue k.route { marked.queue k.route with pending := some ⟨.batchFull, .buffer, true⟩ }).raise
            .closeDeferred).logFault .closeDeferred k.route.val)))

/-! ### Terminals -/

/-- ENROL makes a VACANT entry ACTIVE with the five fields it carries, an empty history list and zero totals; refusals in
the order of the rules: a terminal number above 63, a field out of range, then those of the entry. -/
def Obligations.EnrolMakesActive : Prop :=
  (∀ (l : LinkId) (corr bt bl br bf bd : Byte) (floor : List Byte) (s : State),
    s.Hears l 11 → isPartner l = true → s.status.part = .running → floor.length = 6 →
    let go := exec (.enrol l corr ([bt, bl, br, bf, bd] ++ floor)) s
    (64 ≤ bt.toNat → go = .next (s.answer l corr .terminalRange)) ∧
    (bt.toNat < 64 →
      4 ≤ bl.toNat ∨ 4 ≤ br.toNat ∨ 8 ≤ bf.toNat ∨ 4 ≤ bd.toNat ∨ (∃ x ∈ nibblesOf floor, 9 < x) →
      go = .next (s.answer l corr .badParameter))) ∧
  ∀ (l : LinkId) (corr bt bl br bf bd : Byte) (floor : List Byte) (t : TerminalNo) (i : LaneNo) (r : RouteNo)
    (f : FamilyNo) (v : Nat) (s : State),
    s.Hears l 11 → isPartner l = true → s.status.part = .running → floor.length = 6 → bt.toNat = t.val →
    bl.toNat = i.val → br.toNat = r.val → bf.toNat = f.val → bd.toNat ≤ 3 → packedOf floor = some v →
    let go := exec (.enrol l corr ([bt, bl, br, bf, bd] ++ floor)) s
    ((s.term t).state = .active ∨ (s.term t).state = .held → go = .next (s.answer l corr .terminalBusy)) ∧
    ((s.term t).state = .closing → go = .next (s.answer l corr .terminalClosing)) ∧
    ((s.term t).state = .vacant →
      (s.defined r = false → go = .next (s.answer l corr .routeUndefined)) ∧
      (s.defined r = true →
        ((s.family f).now.state = .empty → go = .next (s.answer l corr .keyUnavailable)) ∧
        ((s.family f).now.state ≠ .empty →
          go = .next ((s.setTerm t ⟨.active, i, r, f, bd.toNat, v, [], Totals.zero⟩).answer l corr .done))))

/-- HOLD TERMINAL, RELEASE TERMINAL and SET FLOOR write one field of an ACTIVE or HELD entry; a VACANT or CLOSING entry, a
terminal number above 63 and a digit above 9 are refused. -/
def Obligations.TerminalEdits : Prop :=
  (∀ (l : LinkId) (corr b : Byte) (floor : List Byte) (s : State), isPartner l = true → s.status.part = .running →
    floor.length = 6 →
    (s.Hears l 1 → 64 ≤ b.toNat →
      exec (.holdTerminal l corr [b]) s = .next (s.answer l corr .terminalRange) ∧
      exec (.releaseTerminal l corr [b]) s = .next (s.answer l corr .terminalRange) ∧
      exec (.retire l corr [b]) s = .next (s.answer l corr .terminalRange)) ∧
    (s.Hears l 7 →
      (64 ≤ b.toNat → exec (.setFloor l corr (b :: floor)) s = .next (s.answer l corr .terminalRange)) ∧
      (b.toNat < 64 → (∃ x ∈ nibblesOf floor, 9 < x) →
        exec (.setFloor l corr (b :: floor)) s = .next (s.answer l corr .badParameter)))) ∧
  ∀ (l : LinkId) (corr b : Byte) (floor : List Byte) (v : Nat) (t : TerminalNo) (s : State),
    isPartner l = true → s.status.part = .running → b.toNat = t.val → floor.length = 6 → packedOf floor = some v →
    let e := s.term t
    (s.Hears l 1 →
      (e.state = .active ∨ e.state = .held →
        exec (.holdTerminal l corr [b]) s = .next ((s.setTerm t { e with state := .held }).answer l corr .done)) ∧
      (e.state = .active ∨ (e.state = .held ∧ s.defined e.route = true) →
        exec (.releaseTerminal l corr [b]) s = .next ((s.setTerm t { e with state := .active }).answer l corr .done)) ∧
      (e.state = .held → s.defined e.route = false →
        exec (.releaseTerminal l corr [b]) s = .next (s.answer l corr .routeUndefined)) ∧
      (e.state = .vacant →
        exec (.holdTerminal l corr [b]) s = .next (s.answer l corr .terminalVacant) ∧
        exec (.releaseTerminal l corr [b]) s = .next (s.answer l corr .terminalVacant) ∧
        exec (.retire l corr [b]) s = .next (s.answer l corr .terminalVacant)) ∧
      (e.state = .closing →
        exec (.holdTerminal l corr [b]) s = .next (s.answer l corr .terminalClosing) ∧
        exec (.releaseTerminal l corr [b]) s = .next (s.answer l corr .terminalClosing) ∧
        exec (.retire l corr [b]) s = .next (s.answer l corr .terminalClosing))) ∧
    (s.Hears l 7 →
      (e.state = .active ∨ e.state = .held →
        exec (.setFloor l corr (b :: floor)) s = .next ((s.setTerm t { e with floor := v }).answer l corr .done)) ∧
      (e.state = .vacant → exec (.setFloor l corr (b :: floor)) s = .next (s.answer l corr .terminalVacant)) ∧
      (e.state = .closing → exec (.setFloor l corr (b :: floor)) s = .next (s.answer l corr .terminalClosing)))

/-- Nothing of the terminal is outstanding: totals zero, no history entry PENDING or OFFERED, no wrap for it in flight. -/
def Quiet (s : State) (t : TerminalNo) : Prop :=
  (s.term t).totals = Totals.zero ∧
  (∀ h ∈ (s.term t).history, h.disposition ≠ .pending ∧ h.disposition ≠ .offered) ∧
  s.engine.servesTerminal t = false

/-- MOVE replaces the four fields of a quiet ACTIVE or HELD entry and empties its history list; refusals in the order
of the rule. RETIRE makes an ACTIVE or HELD entry VACANT at once where the release test holds, and CLOSING otherwise;
the answer carries the state reached. A MOVE of a terminal number above 63 or with a field out of range is refused. -/
def Obligations.MoveAndRetire : Prop :=
  (∀ (l : LinkId) (corr bt bl br bf bd : Byte) (s : State), s.Hears l 5 → isPartner l = true →
     s.status.part = .running →
     (64 ≤ bt.toNat → exec (.move l corr [bt, bl, br, bf, bd]) s = .next (s.answer l corr .terminalRange)) ∧
     (bt.toNat < 64 → 4 ≤ bl.toNat ∨ 4 ≤ br.toNat ∨ 8 ≤ bf.toNat ∨ 4 ≤ bd.toNat →
       exec (.move l corr [bt, bl, br, bf, bd]) s = .next (s.answer l corr .badParameter))) ∧
  (∀ (l : LinkId) (corr bt bl br bf bd : Byte) (t : TerminalNo) (i : LaneNo) (r : RouteNo) (f : FamilyNo) (s : State),
     s.Hears l 5 → isPartner l = true → s.status.part = .running → bt.toNat = t.val → bl.toNat = i.val →
     br.toNat = r.val → bf.toNat = f.val → bd.toNat ≤ 3 →
     let go := exec (.move l corr [bt, bl, br, bf, bd]) s
     let e := s.term t
     (e.state = .vacant → go = .next (s.answer l corr .terminalVacant)) ∧
     (e.state = .closing → go = .next (s.answer l corr .terminalClosing)) ∧
     (e.state = .active ∨ e.state = .held →
       (¬ Quiet s t → go = .next (s.answer l corr .terminalBusy)) ∧
       (Quiet s t →
         (s.defined r = false → go = .next (s.answer l corr .routeUndefined)) ∧
         (s.defined r = true →
           ((s.family f).now.state = .empty → go = .next (s.answer l corr .keyUnavailable)) ∧
           ((s.family f).now.state ≠ .empty →
             go = .next ((s.setTerm t
               { e with lane := i, route := r, family := f, fraction := bd.toNat, history := [] }).answer l corr .done)))))) ∧
  (∀ (l : LinkId) (corr b : Byte) (t : TerminalNo) (s : State), s.Hears l 1 → isPartner l = true →
     s.status.part = .running → b.toNat = t.val → (s.term t).state = .active ∨ (s.term t).state = .held →
     (Quiet s t → exec (.retire l corr [b]) s =
       .next ((s.setTerm t Terminal.vacant).answer l corr .done (.terminalState .vacant))) ∧
     (¬ Quiet s t → exec (.retire l corr [b]) s =
       .next ((s.setTerm t { s.term t with state := .closing }).answer l corr .done (.terminalState .closing))))

/-! ### Key families -/

/-- KEY LOAD and ROLL FAMILY, when they pass, keep the record as prior contents, name the operation, change the state,
and put an empty place for their answer into the link's queue. A field out of range, a cut-over under way, a family that
is EMPTY or RETIRED, and a generation or epoch at 65,535 are refused. The fields of KEY LOAD lie in its 43 bytes as the
kind table says. -/
def Obligations.FamilyWorkStarts : Prop :=
  ((∀ (f c2 c1 c0 l2 l1 l0 roll : Byte) (wrapped check : List Byte), wrapped.length = 32 → check.length = 3 →
      parseLoad (f :: c2 :: c1 :: c0 :: l2 :: l1 :: l0 :: roll :: (wrapped ++ check)) =
        some ⟨f, numberOf [c2, c1, c0], numberOf [l2, l1, l0], roll, wrapped, BitVec.ofNat 24 (numberOf check)⟩) ∧
    ∀ p : List Byte, p.length ≠ 43 → parseLoad p = none) ∧
  (∀ (corr : Byte) (p : List Byte) (raw : LoadBytes) (s : State), s.Hears .service 43 → s.status.part ≠ .setup →
    p.length = 43 → parseLoad p = some raw →
    (8 ≤ raw.family.toNat ∨ raw.ceiling = 0 ∨ 1048575 < raw.ceiling ∨ raw.ceiling < raw.low ∨ 2 ≤ raw.roll.toNat →
      exec (.keyLoad .service corr p) s = .next (s.answer .service corr .badParameter)) ∧
    (∀ f : FamilyNo, raw.family.toNat = f.val → 1 ≤ raw.ceiling → raw.ceiling ≤ 1048575 → raw.low ≤ raw.ceiling →
      raw.roll.toNat ≤ 1 →
      raw.load = some (f, ⟨raw.wrapped, raw.check, raw.ceiling, raw.low, raw.roll == 1#8⟩)) ∧
    (∀ f w, raw.load = some (f, w) → (s.family f).now.state ≠ .loading → (s.family f).now.state ≠ .rolling →
      s.engine.servesFamily f = false → 65535 ≤ (s.family f).now.generation →
      exec (.keyLoad .service corr p) s = .next (s.answer .service corr .generationSpent))) ∧
  (∀ (l : LinkId) (corr b : Byte) (s : State), s.Hears l 1 → isPartner l = true → s.status.part = .running →
    (8 ≤ b.toNat → exec (.rollFamily l corr [b]) s = .next (s.answer l corr .badParameter)) ∧
    ∀ f : FamilyNo, b.toNat = f.val →
      (s.cutover.stage ≠ .idle → exec (.rollFamily l corr [b]) s = .next (s.answer l corr .cutoverActive)) ∧
      (s.cutover.stage = .idle →
        ((s.family f).now.state = .empty ∨ (s.family f).now.state = .retired →
          exec (.rollFamily l corr [b]) s = .next (s.answer l corr .keyUnavailable)) ∧
        ((s.family f).now.state = .active ∨ (s.family f).now.state = .low ∨ (s.family f).now.state = .exhausted →
          s.engine.servesFamily f = false → 65535 ≤ (s.family f).now.epoch →
          exec (.rollFamily l corr [b]) s = .next (s.answer l corr .epochSpent)))) ∧
  (∀ (corr b : Byte) (p : List Byte) (f : FamilyNo) (w : LoadWork) (raw : LoadBytes) (s : State),
    s.Hears .service 43 → s.status.part ≠ .setup → p.length = 43 → parseLoad p = some raw → raw.load = some (f, w) →
    b = raw.family → (s.family f).now.state ≠ .loading → (s.family f).now.state ≠ .rolling →
    s.engine.servesFamily f = false → (s.family f).now.generation < 65535 →
    exec (.keyLoad .service corr p) s = .next (((s.setFamily f
      ⟨{ (s.family f).now with state := .loading }, .load, some (s.family f).now⟩).setLoad f (some w)).enqueue .service
        (.place f corr))) ∧
  ∀ (l : LinkId) (corr b : Byte) (f : FamilyNo) (s : State), s.Hears l 1 → isPartner l = true →
    s.status.part = .running → b.toNat = f.val → s.cutover.stage = .idle →
    (s.family f).now.state = .active ∨ (s.family f).now.state = .low ∨ (s.family f).now.state = .exhausted →
    s.engine.servesFamily f = false → (s.family f).now.epoch < 65535 →
    exec (.rollFamily l corr [b]) s = .next ((s.setFamily f
      ⟨{ (s.family f).now with state := .rolling }, .gatewayRoll, some (s.family f).now⟩).enqueue l (.place f corr))

/-- While a family is LOADING or ROLLING, or a wrap on it is in flight, KEY LOAD, ROLL FAMILY and RETIRE FAMILY are
refused FAMILY_BUSY, the first and the last in BLANK and during a cut-over too. RETIRE FAMILY destroys the root, clears
the mark and makes the family RETIRED, keeping the rest; a RETIRED family is answered DONE, and an EMPTY one and a
family number above 7 are refused. -/
def Obligations.BusyAndRetiredFamilies : Prop :=
  (∀ (corr b : Byte) (s : State), s.Hears .service 1 → s.status.part ≠ .setup → 8 ≤ b.toNat →
     exec (.retireFamily .service corr [b]) s = .next (s.answer .service corr .badParameter)) ∧
  (∀ (corr b : Byte) (f : FamilyNo) (s : State), b.toNat = f.val →
     (s.family f).now.state = .loading ∨ (s.family f).now.state = .rolling ∨ s.engine.servesFamily f = true →
     (∀ (p : List Byte) (raw : LoadBytes) (w : LoadWork), s.Hears .service 43 → s.status.part ≠ .setup → p.length = 43 →
       parseLoad p = some raw → raw.load = some (f, w) →
       exec (.keyLoad .service corr p) s = .next (s.answer .service corr .familyBusy)) ∧
     (∀ l, s.Hears l 1 → isPartner l = true → s.status.part = .running → s.cutover.stage = .idle →
       (s.family f).now.state ≠ .empty → (s.family f).now.state ≠ .retired →
       exec (.rollFamily l corr [b]) s = .next (s.answer l corr .familyBusy)) ∧
     (s.Hears .service 1 → s.status.part ≠ .setup → (s.family f).now.state ≠ .empty →
       exec (.retireFamily .service corr [b]) s = .next (s.answer .service corr .familyBusy))) ∧
  (∀ (corr b : Byte) (f : FamilyNo) (s : State), s.Hears .service 1 → s.status.part ≠ .setup → b.toNat = f.val →
     s.engine.servesFamily f = false →
     let k := (s.family f).now
     ((k.state = .active ∨ k.state = .low ∨ k.state = .exhausted) →
       exec (.retireFamily .service corr [b]) s = .next ((s.setFamily f { s.family f with
         now := { k with state := .retired, rollAtCutover := false, root := none } }).answer .service corr .done)) ∧
     (k.state = .retired → exec (.retireFamily .service corr [b]) s = .next (s.answer .service corr .done)) ∧
     (k.state = .empty → exec (.retireFamily .service corr [b]) s = .next (s.answer .service corr .keyUnavailable)))

/-- LOAD_COMPLETION: a matching check value brings the new root with generation plus one, epoch and counter 0 and the
values carried; another gives the family its prior contents back. The answer fills its place where it stands, and none
where a reset has emptied it. ROLL_COMPLETION: the family takes the derived root, epoch plus one and counter 0; a
gateway roll fills its place, a cut-over roll moves the procedure on. -/
def Obligations.FamilyWorkCompletes : Prop :=
  (∀ (s : State) (f : FamilyNo) (code : Code) (reply : Reply),
     s.fill f code reply = { s with links := (s.fill f code reply).links } ∧
     ∀ l : LinkId,
       (∀ (before after : List QueueEntry) (corr : Byte), (s.link l).queue = before ++ .place f corr :: after →
         (∀ c, .place f c ∉ before) → (s.fill f code reply).link l =
           { s.link l with queue := before ++ .run (.answer corr code reply) [] :: after }) ∧
       ((∀ c, .place f c ∉ (s.link l).queue) → (s.fill f code reply).link l = s.link l)) ∧
  (∀ (f : FamilyNo) (w : LoadWork) (prior : FamilyRecord) (s : State), s.supply = .on → (s.family f).op = .load →
     (s.family f).prior = some prior → Vec.get s.keys.loads f = some w →
     let root := Config.unwrapRoot Config.transportKey w.wrapped
     let g := (s.family f).now.generation + 1
     let st : FamilyState := if w.ceiling ≤ w.low then .low else .active
     (Config.rootCheck root = w.check →
       exec (.loadCompletion f) s = .next ((((s.setLoad f none).setFamily f
         ⟨⟨st, g, 0, 0, w.ceiling, w.low, w.rollAtCutover, some root⟩, .none, none⟩).raiseIf
           (decide (w.ceiling ≤ w.low)) .keyLow).fill f .done (.loaded f g st))) ∧
     (Config.rootCheck root ≠ w.check →
       exec (.loadCompletion f) s =
         .next (((s.setLoad f none).setFamily f ⟨prior, .none, none⟩).fill f .checkMismatch .bare))) ∧
  (∀ (f : FamilyNo) (s : State), s.supply = .on →
     let k := (s.family f).now
     let st : FamilyState := if k.ceiling ≤ k.low then .low else .active
     let rolled := (s.setFamily f
       ⟨⟨st, k.generation, k.epoch + 1, 0, k.ceiling, k.low, k.rollAtCutover, k.root.map Config.rollRoot⟩, .none, none⟩).raiseIf
         (decide (k.ceiling ≤ k.low)) .keyLow
     ((s.family f).op = .gatewayRoll →
       exec (.rollCompletion f) s = .next (rolled.fill f .done (.rolled f (k.epoch + 1) st))) ∧
     ((s.family f).op = .cutoverRoll →
       (∀ g : FamilyNo, g.val = f.val + 1 →
         exec (.rollCompletion f) s = .next { rolled with cutover := { s.cutover with nextFamily := some g } }) ∧
       (f.val = 7 → exec (.rollCompletion f) s = .next (State.raise
         { rolled with
           cutover := { s.cutover with nextFamily := none, matchTime := none, stage := .idle } } .cutoverDone))))

/-! ### Routes -/

/-- A route command of a RUNNING part refuses a route number above 3 BAD_PARAMETER and a route that is not defined
ROUTE_UNDEFINED, whatever its other bytes (R116). -/
def RefusesRoute (command : Byte → Instr) (l : LinkId) (corr : Byte) (s : State) : Prop :=
  isPartner l = true → s.status.part = .running → ∀ b : Byte,
    (4 ≤ b.toNat → exec (command b) s = .next (s.answer l corr .badParameter)) ∧
    ∀ r : RouteNo, b.toNat = r.val → s.defined r = false → exec (command b) s = .next (s.answer l corr .routeUndefined)

/-- ROUTE UP brings a DOWN route UP with e at drain init and i at 0; ROUTE DOWN of an UP route closes its stream with
STREAM_END, rewinds it, empties the list and stops the timer. Each is answered DONE, or refused a route number above 3
or a route that is not defined. -/
def Obligations.RouteUpAndDown : Prop :=
  (∀ (l : LinkId) (corr : Byte) (s : State), s.Hears l 1 →
    RefusesRoute (fun b => .routeUp l corr [b]) l corr s ∧ RefusesRoute (fun b => .routeDown l corr [b]) l corr s) ∧
  ∀ (l : LinkId) (corr b : Byte) (r : RouteNo) (c : RouteConfig) (s : State), s.Hears l 1 → isPartner l = true →
    s.status.part = .running → b.toNat = r.val → s.config r = some c →
    ((s.route r).state = .up →
      exec (.routeUp l corr [b]) s = .next (s.answer l corr .done) ∧
      ((s.route r).stream = none → exec (.routeDown l corr [b]) s =
        .next (((s.rewind r).setRoute r
          { s.route r with state := .down .command, offered := [], timer := .stopped, stream := none }).answer
            l corr .done)) ∧
      ∀ st, (s.route r).stream = some st → exec (.routeDown l corr [b]) s =
        .next ((((s.send st.link (.streamEnd st.corr r .routeDown)).rewind r).setRoute r
          { s.route r with state := .down .command, offered := [], timer := .stopped, stream := none }).answer
            l corr .done)) ∧
    ((s.route r).state ≠ .up →
      exec (.routeUp l corr [b]) s =
        .next ((s.setRoute r { s.route r with state := .up, e := c.init, tag := 0 }).answer l corr .done) ∧
      exec (.routeDown l corr [b]) s =
        .next ((s.setRoute r { s.route r with state := .down .command }).answer l corr .done))

/-- A rewind of the route returns an OFFERED record of a terminal with an identity to PENDING. -/
def rewoundRecord (s : State) (r : RouteNo) (tn : TerminalNo) (id : Identity) : Bool :=
  (s.slotsOf r).any fun n =>
    match s.at? n with
    | some rec => rec.state == .offered && rec.terminal == tn && rec.id == id
    | none => false

/-- A rewind makes every OFFERED record of the route PENDING in place with its offer count kept, and an OFFERED close
record PENDING, returns the history entries of these records to PENDING, and sets both offer points to the first PENDING
record; other records, other routes and the pool stay as they are. -/
def Obligations.RewindReturnsOffered : Prop :=
  ∀ (s : State) (r : RouteNo),
    let t := s.rewind r
    (∀ n rec, s.at? n = some rec → t.at? n =
      some (if n ∈ s.slotsOf r ∧ rec.state = .offered then { rec with state := .pending } else rec)) ∧
    (∀ n, s.at? n = none → t.at? n = none) ∧ t.qm.poolFree = s.qm.poolFree ∧
    (∀ q, q ≠ r → t.queue q = s.queue q) ∧
    OfferPointSet (s.queue r).live (t.queue r).live (livePlace r) t.qm.slots ∧
    OfferPointSet (s.queue r).store (t.queue r).store (s.storePlace r) t.qm.slots ∧
    (t.queue r).overflow = (s.queue r).overflow ∧
    (∀ c, (s.queue r).buffer = some c →
      (t.queue r).buffer = some (if c.state = .offered then { c with state := .pending } else c)) ∧
    (∀ tn, t.term tn = { s.term tn with history := (s.term tn).history.map fun h =>
      if h.disposition = .offered ∧ rewoundRecord s r tn h.id = true then { h with disposition := .pending } else h }) ∧
    t.status = s.status ∧ t.links = s.links ∧ t.intake = s.intake ∧ t.engine = s.engine ∧ t.keys = s.keys ∧
    t.accounts = s.accounts ∧ t.dispatch = s.dispatch ∧ t.cutover = s.cutover

/-- The slots of a route's data records: the live ring's and the store ring's from top to bottom, and the overflow
part's; and where the rings lie (R96, R97, R99). -/
def RecordPlaces (s : State) (r : RouteNo) : Prop :=
  (∀ n, n ∈ s.slotsOf r ↔
    (∃ pos, (s.queue r).live.top ≤ pos ∧ pos < (s.queue r).live.bottom ∧ n = (livePlace r).slot pos) ∨
    (∃ pos, (s.queue r).store.top ≤ pos ∧ pos < (s.queue r).store.bottom ∧ n = (s.storePlace r).slot pos) ∨
    n ∈ (s.queue r).overflow) ∧
  ∀ pos, (livePlace r).slot pos = 16 * r.val + pos % 16 ∧
    ∀ c, s.config r = some c → ∃ first, 64 ≤ first ∧ (s.storePlace r).slot pos = first + pos % 2 ^ c.k

/-- The heads: the record at the live ring's offer point below bottom; the record at the store ring's offer point below
bottom, else the first PENDING record of the overflow part; the close record exactly while it is PENDING and no data
record of its batch is PENDING (R103, R108). -/
def HeadsPresented (s : State) (r : RouteNo) : Prop :=
  let q := s.queue r
  let waits := fun n => ∃ rec, s.at? n = some rec ∧ rec.state = .pending
  (∀ cl, s.closeHead r = some cl ↔ q.buffer = some cl ∧ cl.state = .pending ∧
    ∀ n ∈ s.slotsOf r, ∀ rec, s.at? n = some rec → rec.id.batch = cl.id.batch → rec.state ≠ .pending) ∧
  (q.live.offer < q.live.bottom →
    s.liveHead r = (s.at? ((livePlace r).slot q.live.offer)).map fun rec => ((livePlace r).slot q.live.offer, rec)) ∧
  (q.live.bottom ≤ q.live.offer → s.liveHead r = none) ∧
  (q.store.offer < q.store.bottom →
    s.storeHead r = (s.at? ((s.storePlace r).slot q.store.offer)).map fun rec => ((s.storePlace r).slot q.store.offer, rec)) ∧
  (q.store.bottom ≤ q.store.offer →
    (∀ before n after rec, q.overflow = before ++ n :: after → (∀ m ∈ before, ¬ waits m) → s.at? n = some rec →
      rec.state = .pending → s.storeHead r = some (n, rec)) ∧
    ((∀ n ∈ q.overflow, ¬ waits n) → s.storeHead r = none))

/-- The selection of a record: the eligible close record first, then the drain ratio between two heads, then the one
head; and what the heads are. -/
def Obligations.SelectionOrder : Prop :=
  (∀ (s : State) (r : RouteNo), RecordPlaces s r ∧ HeadsPresented s r) ∧
  ∀ (s : State) (r : RouteNo) (c : RouteConfig),
    (∀ cl, s.closeHead r = some cl → s.choose r c = some (.close cl, (s.route r).e)) ∧
    (s.closeHead r = none →
      (∀ lv st, s.liveHead r = some lv → s.storeHead r = some st →
        ((s.route r).e ≤ c.minus →
          s.choose r c = some (.data st.1 st.2, (s.route r).e + c.plus - c.minus)) ∧
        (c.minus < (s.route r).e → s.choose r c = some (.data lv.1 lv.2, (s.route r).e - c.minus))) ∧
      (∀ lv, s.liveHead r = some lv → s.storeHead r = none →
        s.choose r c = some (.data lv.1 lv.2, (s.route r).e)) ∧
      (∀ st, s.liveHead r = none → s.storeHead r = some st →
        s.choose r c = some (.data st.1 st.2, (s.route r).e)) ∧
      (s.liveHead r = none → s.storeHead r = none → s.choose r c = none))

/-- The dispatch state after one offer of a record. -/
def offeredOnce (d : RouteDispatch) (c : RouteConfig) (id : Identity) (e : Nat) : RouteDispatch :=
  { d with
    e := e
    offered := d.offered ++ [id]
    tag := if d.tag = 65535 then 0 else d.tag + 1
    timer :=
      if d.offered = [] then (if c.timeout = 0 then AckTimer.stopped else AckTimer.running c.timeout) else d.timer }

/-- PULL ONE: refused ROUTE_DOWN, WINDOW_FULL or EMPTY with nothing changed; otherwise the record chosen becomes OFFERED
with its offer count raised, its history entry OFFERED, joins the offered list, takes the next tag, the offer points are
set again, and its frame is the answer. A route number above 3 and a route that is not defined are refused. -/
def Obligations.PullOneOffers : Prop :=
  (∀ (l : LinkId) (corr : Byte) (s : State), s.Hears l 1 → RefusesRoute (fun b => .pullOne l corr [b]) l corr s) ∧
  ∀ (l : LinkId) (corr b : Byte) (r : RouteNo) (c : RouteConfig) (s : State), s.Hears l 1 → isPartner l = true →
    s.status.part = .running → b.toNat = r.val → s.config r = some c →
    let go := exec (.pullOne l corr [b]) s
    let tag := c.tagStart + (s.route r).tag % (c.tagEnd - c.tagStart + 1)
    ((s.route r).state ≠ .up → go = .next (s.answer l corr .routeDown)) ∧
    ((s.route r).state = .up →
      (c.window ≤ (s.route r).offered.length → go = .next (s.answer l corr .windowFull)) ∧
      ((s.route r).offered.length < c.window →
        (s.choose r c = none → go = .next (s.answer l corr .empty)) ∧
        (∀ n rec e, s.choose r c = some (.data n rec, e) →
          let now := { rec with state := RecordState.offered, offers := min (rec.offers + 1) 255 }
          ∃ t u, go = .next t ∧ s.offer r c corr = some (u, .offered corr r tag (.data now)) ∧
            t = u.send l (.offered corr r tag (.data now)) ∧
            t.at? n = some now ∧ (∀ m, m ≠ n → t.at? m = s.at? m) ∧
            (∃ live store, t.qm.queues = Vec.put s.qm.queues r { s.queue r with live := live, store := store } ∧
              OfferPointSet (s.queue r).live live (livePlace r) t.qm.slots ∧
              OfferPointSet (s.queue r).store store (s.storePlace r) t.qm.slots) ∧
            (∀ tn, t.term tn =
              if tn = rec.terminal then followed (s.term tn) rec.id .pending .offered else s.term tn) ∧
            t.dispatch = Vec.put s.dispatch r (offeredOnce (s.route r) c rec.id e) ∧
            t.terminals = reportTo s.engine s.terminals rec.terminal rec.id .offered ∧
            t.links = Vec.put s.links (linkIndex l) ((s.link l).push (.run (.offered corr r tag (.data now)) [])) ∧
            t.status = s.status ∧ t.intake = s.intake ∧ t.engine = s.engine ∧ t.keys = s.keys ∧
            t.accounts = s.accounts ∧ t.cutover = s.cutover ∧ t.qm.poolFree = s.qm.poolFree) ∧
        (∀ cl e, s.choose r c = some (.close cl, e) →
          let now := { cl with state := RecordState.offered, offers := min (cl.offers + 1) 255 }
          let u := (s.setQueue r { s.queue r with buffer := some now }).setRoute r (offeredOnce (s.route r) c cl.id e)
          s.offer r c corr = some (u, .offered corr r tag (.close now)) ∧
          go = .next (u.send l (.offered corr r tag (.close now))))))

/-- Offers made one after another, each while the offered list holds fewer than W entries, and the frames they make
(R119 to R123). -/
def OffersInTurn (r : RouteNo) (c : RouteConfig) (corr : Byte) : List Message → State → State → Prop
  | [], s, u => u = s
  | m :: more, s, u =>
    (s.route r).offered.length < c.window ∧ ∃ v, s.offer r c corr = some (v, m) ∧ OffersInTurn r c corr more v u

/-- PULL BLOCK: refused ROUTE_DOWN on a DOWN route; otherwise its frames are those of that many offers made one after
another, the frames and BLOCK_END are one entry of the response queue, BLOCK_END carries their number and cause, at most
32 frames are sent and the list never passes W. A route number above 3 and a route that is not defined are refused. -/
def Obligations.PullBlockRun : Prop :=
  (∀ (l : LinkId) (corr n : Byte) (s : State), s.Hears l 2 → RefusesRoute (fun b => .pullBlock l corr [b, n]) l corr s) ∧
  ∀ (l : LinkId) (corr b n : Byte) (r : RouteNo) (c : RouteConfig) (s : State), s.Hears l 2 → isPartner l = true →
    s.status.part = .running → b.toNat = r.val → s.config r = some c →
    ((s.route r).state ≠ .up → exec (.pullBlock l corr [b, n]) s = .next (s.answer l corr .routeDown)) ∧
    ((s.route r).state = .up → ∃ t u frames cause first more,
      exec (.pullBlock l corr [b, n]) s = .next t ∧ OffersInTurn r c corr frames s u ∧
      t = u.enqueue l (.run first more) ∧
      first :: more = frames ++ [.blockEnd corr r frames.length cause] ∧
      t.link l = (s.link l).push (.run first more) ∧
      frames.length ≤ min (max n.toNat 1) 32 ∧ (cause = .count ↔ frames.length = min (max n.toNat 1) 32) ∧
      (t.route r).offered.length = (s.route r).offered.length + frames.length ∧
      (cause = .windowFull → c.window ≤ (t.route r).offered.length) ∧
      (cause = .empty → t.choose r c = none) ∧ (cause = .count ∨ cause = .windowFull ∨ cause = .empty) ∧
      ((s.route r).offered.length ≤ c.window → (t.route r).offered.length ≤ c.window) ∧
      (∀ q, q ≠ r → t.route q = s.route q ∧ t.queue q = s.queue q) ∧ (∀ m, m ≠ l → t.link m = s.link m) ∧
      t.status = s.status ∧ t.intake = s.intake ∧ t.engine = s.engine ∧ t.keys = s.keys ∧ t.accounts = s.accounts ∧
      t.cutover = s.cutover)

/-- STREAM OPEN opens or replaces the stream of an UP route with the link and correlation number of the request; on a DOWN
route it is refused ROUTE_DOWN, with a bad renew byte BAD_PARAMETER. STREAM CLOSE closes it without STREAM_END. A route
number above 3 and a route that is not defined are refused. -/
def Obligations.StreamsOpenAndClose : Prop :=
  (∀ (l : LinkId) (corr n renew : Byte) (s : State),
    (s.Hears l 3 → RefusesRoute (fun b => .streamOpen l corr [b, n, renew]) l corr s) ∧
    (s.Hears l 1 → RefusesRoute (fun b => .streamClose l corr [b]) l corr s)) ∧
  ∀ (l : LinkId) (corr b n : Byte) (r : RouteNo) (c : RouteConfig) (s : State), isPartner l = true →
    s.status.part = .running → b.toNat = r.val → s.config r = some c →
    (s.Hears l 3 →
      (∀ renew : Byte, 2 ≤ renew.toNat →
        exec (.streamOpen l corr [b, n, renew]) s = .next (s.answer l corr .badParameter)) ∧
      ((s.route r).state ≠ .up → exec (.streamOpen l corr [b, n, 0#8]) s = .next (s.answer l corr .routeDown) ∧
        exec (.streamOpen l corr [b, n, 1#8]) s = .next (s.answer l corr .routeDown)) ∧
      ((s.route r).state = .up →
        exec (.streamOpen l corr [b, n, 0#8]) s = .next ((s.setRoute r
          { s.route r with stream := some ⟨max n.toNat 1, max n.toNat 1, false, l, corr⟩ }).answer l corr .done) ∧
        exec (.streamOpen l corr [b, n, 1#8]) s = .next ((s.setRoute r
          { s.route r with stream := some ⟨max n.toNat 1, max n.toNat 1, true, l, corr⟩ }).answer l corr .done))) ∧
    (s.Hears l 1 → exec (.streamClose l corr [b]) s =
      .next ((s.setRoute r { s.route r with stream := none }).answer l corr .done))

/-- The route's stream is OPEN on the link and ready (R125). -/
def StreamReady (s : State) (l : LinkId) (r : RouteNo) : Prop :=
  ∃ c st, s.config r = some c ∧ (s.route r).stream = some st ∧ st.link = l ∧ s.status.part = .running ∧
    (s.route r).state = .up ∧ (s.route r).offered.length < c.window ∧ s.choose r c ≠ none

/-- A stream after one of its offers, and what joins the link's response queue (R125). -/
def StreamCounted (st : OpenStream) (r : RouteNo) (after : Option OpenStream) (joins : List QueueEntry) : Prop :=
  (1 < st.current → after = some { st with current := st.current - 1 } ∧ joins = []) ∧
  (st.current ≤ 1 → st.renew = true → after = some { st with current := st.base } ∧ joins = []) ∧
  (st.current ≤ 1 → st.renew = false → after = none ∧ joins = [.run (.streamEnd st.corr r .count) []])

/-- The transmitter that finishes a message sends the front of its response queue when that is a message, else the frame
of the ready stream met first after its pointer, else waits. STREAM_OFFER is the second of these on an idle transmitter.
That an idle transmitter takes its next message at TRANSMIT_COMPLETE, and serves a ready stream in that step, are the
model's choices (logs 5 and 26). -/
def Obligations.TransmitterTakesNext : Prop :=
  (∀ (s : State) (l : LinkId),
    (∀ r, s.nextStream l = some r ↔ StreamReady s l r ∧ ∀ q, StreamReady s l q → q ≠ r →
      searchPlace (s.link l).pointer r < searchPlace (s.link l).pointer q) ∧
    (s.nextStream l = none ↔ ∀ r, ¬ StreamReady s l r)) ∧
  (∀ (l : LinkId) (s : State) (m : Message) (more : List Message) (rest : List QueueEntry), s.supply = .on →
    (s.link l).queue = .run m more :: rest →
    exec (.transmitComplete l) s = .next (s.setLink l
      { s.link l with
        sending := some ⟨m, frameOf m.body⟩
        queue :=
          match more with
          | [] => rest
          | m' :: more' => .run m' more' :: rest })) ∧
  (∀ (l : LinkId) (s : State), s.supply = .on → (∀ m more rest, (s.link l).queue ≠ .run m more :: rest) →
    s.nextStream l = none → exec (.transmitComplete l) s = .next (s.setLink l { s.link l with sending := none })) ∧
  ∀ (l : LinkId) (s : State) (r : RouteNo) (c : RouteConfig) (st : OpenStream) (t : State) (m : Message),
    s.supply = .on → (∀ m more rest, (s.link l).queue ≠ .run m more :: rest) →
    s.nextStream l = some r → s.config r = some c → (s.route r).stream = some st → s.offer r c st.corr = some (t, m) →
    ∃ u after joins, exec (.transmitComplete l) s = .next u ∧ StreamCounted st r after joins ∧
      ((s.link l).sending = none → exec (.streamOffer l) s = .next u) ∧
      u.link l = { s.link l with
        sending := some ⟨m, frameOf m.body⟩
        pointer := r
        queue := (s.link l).queue ++ joins } ∧
      (∀ k, k ≠ l → u.link k = s.link k) ∧ u.dispatch = Vec.put t.dispatch r { t.route r with stream := after } ∧
      u.qm = t.qm ∧ u.terminals = t.terminals ∧ u.status = s.status ∧ u.accounts = s.accounts ∧ u.keys = s.keys ∧
      u.intake = s.intake ∧ u.engine = s.engine ∧ u.cutover = s.cutover

/-- A record of the route named by an identity: the slot of the data record that carries it; it is OFFERED as a data
record, or as the close record where no data record carries the identity (R110, R127). -/
def RecordNamed (s : State) (r : RouteNo) (id : Identity) : Prop :=
  (∀ n, s.slotOf r id = some n → n ∈ s.slotsOf r ∧ ∃ rec, s.at? n = some rec ∧ rec.id = id) ∧
  (s.slotOf r id = none → ∀ n ∈ s.slotsOf r, ∀ rec, s.at? n = some rec → rec.id ≠ id) ∧
  (s.isOffered r id = true ↔
    (∃ n rec, s.slotOf r id = some n ∧ s.at? n = some rec ∧ rec.state = .offered) ∨
    (s.slotOf r id = none ∧ ∃ cl, (s.queue r).buffer = some cl ∧ cl.id = id ∧ cl.state = .offered))

/-- ACK ONE, ACK OLDEST and ACK THROUGH acknowledge the records their rules name, in list order, and answer the number
acknowledged; otherwise NOT_OFFERED with nothing changed. A route number above 3 and a route that is not defined are
refused. A pair stands at or below another by the age of its batch, then by its sequence.
That ACK THROUGH covers the entries as they stand when it is taken is the model's reading (log 21). -/
def Obligations.AcknowledgementsTaken : Prop :=
  (∀ current b sq B S : Nat, b ≤ 65535 → B ≤ 65535 →
    let age := fun x : Nat => ((current : Int) - x) % 65535
    (atOrBelow current b sq B S = true ↔ age B < age b ∨ (age b = age B ∧ sq ≤ S))) ∧
  (∀ (s : State) (r : RouteNo) (id : Identity), RecordNamed s r id) ∧
  (∀ (l : LinkId) (corr b1 b0 s1 s0 : Byte) (s : State),
    (s.Hears l 5 → RefusesRoute (fun b => .ackOne l corr [b, b1, b0, s1, s0]) l corr s ∧
      RefusesRoute (fun b => .ackThrough l corr [b, b1, b0, s1, s0]) l corr s) ∧
    (s.Hears l 1 → RefusesRoute (fun b => .ackOldest l corr [b]) l corr s)) ∧
  ∀ (l : LinkId) (corr b : Byte) (r : RouteNo) (c : RouteConfig) (s : State), isPartner l = true →
    s.status.part = .running → b.toNat = r.val → s.config r = some c →
    (∀ b1 b0 s1 s0 : Byte, s.Hears l 5 →
      let id : Identity := ⟨r, numberOf [b1, b0], numberOf [s1, s0]⟩
      let ids := (s.route r).offered.filter fun x =>
        atOrBelow (s.queue r).batch x.batch x.seq id.batch id.seq
      (s.isOffered r id = true → exec (.ackOne l corr [b, b1, b0, s1, s0]) s =
        .next ((s.acknowledge r c id).answer l corr .done (.acked 1))) ∧
      (s.isOffered r id = false → exec (.ackOne l corr [b, b1, b0, s1, s0]) s =
        .next (s.answer l corr .notOffered)) ∧
      exec (.ackThrough l corr [b, b1, b0, s1, s0]) s =
        .next ((ids.foldl (fun s id => s.acknowledge r c id) s).answer l corr .done (.acked ids.length))) ∧
    (s.Hears l 1 →
      ((s.route r).offered = [] → exec (.ackOldest l corr [b]) s = .next (s.answer l corr .notOffered)) ∧
      ∀ id rest, (s.route r).offered = id :: rest → exec (.ackOldest l corr [b]) s =
        .next ((s.acknowledge r c id).answer l corr .done (.ackedOldest 1 id)))

/-- The freeing of a ring from its top (R105): top has advanced, over ACKED records alone, as far as it can; the slots
it has passed over are free, every other slot is as it was; bottom stays and the offer point is at the first PENDING
record. -/
def Swept (g g' : Ring) (place : RingPlace) (slots slots' : List (Nat × Record)) : Prop :=
  g.top < g'.top ∧ g'.top ≤ g.bottom ∧ g'.bottom = g.bottom ∧
  (∀ x, g.top ≤ x → x < g'.top →
    slotIs slots (place.slot x) .acked = true ∧ Store.find slots' (place.slot x) = none) ∧
  (g'.top < g.bottom → slotIs slots' (place.slot g'.top) .acked = false) ∧
  (∀ m, (∀ x, g.top ≤ x → x < g'.top → place.slot x ≠ m) → Store.find slots' m = Store.find slots m) ∧
  AtFirstPending g' place slots'

/-- One acknowledgement: the record's history entry becomes ACKED, and a CLOSING terminal with nothing left outstanding
VACANT; the entry leaves the list, the timer starts afresh or stops when it was first and is unchanged otherwise; a
record in the overflow part leaves the part at once, its slot at the back of the free list; a ring record not at top
stays, ACKED, and one at top lets top advance over every ACKED record without a break, whose slots are freed. e, i and
the stream stay. An acknowledged close record leaves the buffer FREE, and a close that waited for the buffer is
performed, or waits for the wrap in flight, in the same event as the model has it (log 14). -/
def Obligations.AcknowledgementEffects : Prop :=
  (∀ (s : State) (r : RouteNo) (c : RouteConfig) (id : Identity) (cl : CloseRecord), s.slotOf r id = none →
    (s.queue r).buffer = some cl → cl.id = id →
    let d := s.route r
    let freed := (s.setRoute r
      { d with
        offered := d.offered.erase id
        timer :=
          if d.offered.head? = some id then
            (if d.offered.erase id = [] then .stopped
              else if c.timeout = 0 then .stopped else .running c.timeout)
          else d.timer }).setQueue r { s.queue r with buffer := none }
    ((∀ p, (s.queue r).pending = some p → p.wait ≠ .buffer) → s.acknowledge r c id = freed) ∧
    ∀ p, (s.queue r).pending = some p → p.wait = .buffer →
      (s.engine.servesRoute r = false →
        s.acknowledge r c id = freed.performClose r (if p.deferred then .deferred else p.reason)) ∧
      (s.engine.servesRoute r = true → s.acknowledge r c id =
        freed.setQueue r { s.queue r with buffer := none, pending := some { p with wait := .wrap } })) ∧
  ∀ (s : State) (r : RouteNo) (c : RouteConfig) (id : Identity) (n : Nat) (rec : Record), s.slotOf r id = some n →
    s.at? n = some rec → rec.state = .offered →
    let t := s.acknowledge r c id
    let d := s.route r
    t.route r =
      { d with
        offered := d.offered.erase id
        timer :=
          if d.offered.head? = some id then
            (if d.offered.erase id = [] then .stopped
              else if c.timeout = 0 then .stopped else .running c.timeout)
          else d.timer } ∧
    (∀ q, q ≠ r → t.route q = s.route q) ∧
    (∀ tn, tn ≠ rec.terminal → t.term tn = s.term tn) ∧
    (let e := followed (s.term rec.terminal) rec.id .offered .acked
      let leaves := (∃ h ∈ (s.term rec.terminal).history, h.id = rec.id ∧ h.disposition = .offered) ∧
        PassesRelease s.engine rec.terminal e
      (leaves → t.term rec.terminal = Terminal.vacant) ∧ (¬ leaves → t.term rec.terminal = e)) ∧
    (n ∈ (s.queue r).overflow →
      t.at? n = none ∧ t.qm.poolFree = s.qm.poolFree ++ [n] ∧ n ∉ (t.queue r).overflow) ∧
    (n ∉ (s.queue r).overflow → n < 64 → (livePlace r).slot (s.queue r).live.top ≠ n →
      t.at? n = some { rec with state := .acked } ∧ (t.queue r).live.top = (s.queue r).live.top) ∧
    (n ∉ (s.queue r).overflow → 64 ≤ n → (s.storePlace r).slot (s.queue r).store.top ≠ n →
      t.at? n = some { rec with state := .acked } ∧ (t.queue r).store.top = (s.queue r).store.top) ∧
    (n ∉ (s.queue r).overflow → n < 64 → (livePlace r).slot (s.queue r).live.top = n →
      Swept (s.queue r).live (t.queue r).live (livePlace r) (Store.put s.qm.slots n { rec with state := .acked }) t.qm.slots) ∧
    (n ∉ (s.queue r).overflow → 64 ≤ n → (s.storePlace r).slot (s.queue r).store.top = n →
      Swept (s.queue r).store (t.queue r).store (s.storePlace r) (Store.put s.qm.slots n { rec with state := .acked })
        t.qm.slots) ∧
    t.status = s.status ∧ t.links = s.links ∧ t.intake = s.intake ∧ t.engine = s.engine ∧ t.keys = s.keys ∧
    t.accounts = s.accounts ∧ t.cutover = s.cutover

/-- At the expiry of its timer a route goes DOWN with reason TIMEOUT: STREAM_END, rewind, empty list, timer stopped,
ACK_TIMEOUT raised and logged. Timers that have counted to 0 expire in route order: while that of a route before it
waits, a route's expiry changes nothing. That a timer stands at 0 between the tick and its row is the model's choice
(log 3). -/
def Obligations.TimerExpiryTakesDown : Prop :=
  (∀ (s : State) (r q : RouteNo), q < r → (s.route q).timer = .running 0 → exec (.ackTimerExpiry r) s = .next s) ∧
  ∀ (s : State) (r : RouteNo), s.supply = .on → (s.route r).timer = .running 0 →
    (∀ q, q < r → (s.route q).timer ≠ .running 0) →
    let ended :=
      match (s.route r).stream with
      | some st => s.send st.link (.streamEnd st.corr r .timeout)
      | none => s
    exec (.ackTimerExpiry r) s = .next (((((ended.rewind r).setRoute r
      { s.route r with
        state := .down .timeout
        offered := []
        timer := .stopped
        stream := none }).raise .ackTimeout).logFault .ackTimeout r.val))

/-! ### Clock, cut-over and closes -/

/-- A tick advances the clock by one second, with the wraps of second and day, powered or not; powered, it takes one
from every running timer; nothing else but the Cut-over Unit's due marks changes. That a tick only marks what it brings
about, and that a timer it takes to 0 stands at 0 until ACK_TIMER_EXPIRY is taken, are the model's choice (log 3). -/
def Obligations.TickAdvancesClock : Prop :=
  ∀ s : State, ∃ t, exec .tick s = .next t ∧
    (s.time.sec < 86399 → t.time = ⟨s.time.day, s.time.sec + 1⟩) ∧
    (s.time.sec = 86399 → s.time.day < 65535 → t.time = ⟨s.time.day + 1, 0⟩) ∧
    (s.time = ⟨65535, 86399⟩ → t.time = ⟨0, 0⟩) ∧
    (s.supply ≠ .on → t = { s with cutover := { s.cutover with clock := t.time } }) ∧
    (s.supply = .on →
      (∀ r, t.route r = { s.route r with timer := (t.route r).timer } ∧
        (∀ n, (s.route r).timer = .running (n + 1) → (t.route r).timer = .running n) ∧
        ((s.route r).timer = .running 0 → (t.route r).timer = .running 0) ∧
        ((s.route r).timer = .stopped → (t.route r).timer = .stopped)) ∧
      t.cutover = { s.cutover with clock := t.time, nearDue := t.cutover.nearDue, matchDue := t.cutover.matchDue } ∧
      t.status = s.status ∧ t.links = s.links ∧ t.intake = s.intake ∧ t.engine = s.engine ∧
      t.terminals = s.terminals ∧ t.keys = s.keys ∧ t.accounts = s.accounts ∧ t.qm = s.qm)

/-- A second of day falls on the setting's minute with 0 seconds, in its hour or in any (R140). -/
def FallsOn (c : CutoverSetting) (sec : Nat) : Prop :=
  match c.hour with
  | .any => sec % 3600 = c.minute * 60
  | .hour h => sec = h * 3600 + c.minute * 60

/-- The conditions a match and the beginning of a near warning share (R140, R141). -/
def CutoverArmed (s : State) : Prop :=
  s.status.part = .running ∧ s.cutover.unset = false ∧ s.cutover.setting.enabled = true ∧ s.cutover.stage = .idle

/-- The near warning: a tick to 60 seconds before a matching time makes it due, and its row sets the warning and raises
CUTOVER_NEAR. The match: a tick to a time of the setting, at an hour or at any, makes it due, and its row ends the
warning, records the match time and enters WAITING, or CLOSING when no wrap is in flight. Nothing becomes due unless the
part is RUNNING, the clock set, the setting enabled and the unit IDLE. The due marks, and that a match taken while a
warning is due raises CUTOVER_NEAR, are the model's choice (log 3). -/
def Obligations.WarningAndMatch : Prop :=
  (∀ s : State, s.supply = .on → ∃ t, exec .tick s = .next t ∧
    t.time.sec = (if s.time.sec + 1 < 86400 then s.time.sec + 1 else 0) ∧
    (CutoverArmed s ∧ FallsOn s.cutover.setting t.time.sec → t.cutover.matchDue = some t.time) ∧
    (¬ (CutoverArmed s ∧ FallsOn s.cutover.setting t.time.sec) → t.cutover.matchDue = s.cutover.matchDue) ∧
    (CutoverArmed s ∧ FallsOn s.cutover.setting ((t.time.sec + 60) % 86400) → t.cutover.nearDue = true) ∧
    (¬ (CutoverArmed s ∧ FallsOn s.cutover.setting ((t.time.sec + 60) % 86400)) →
      t.cutover.nearDue = s.cutover.nearDue)) ∧
  (∀ s : State, s.supply = .on → s.cutover.nearDue = true → exec .nearWarning s = .next (State.raise
    { s with cutover := { s.cutover with near := true, nearDue := false } } .cutoverNear)) ∧
  ∀ (s : State) (at_ : ClockTime), s.supply = .on → s.cutover.matchDue = some at_ →
    s.status.part = .running → s.cutover.stage = .idle →
    ∃ t, exec .cutoverMatch s = .next t ∧
      t.cutover = { s.cutover with
        near := false
        nearDue := false
        matchDue := none
        matchTime := some at_
        nextRoute := some 0
        nextFamily := some 0
        stage := if s.engine = .idle then .closing else .waiting } ∧
      (∀ i, t.eligible i = false) ∧ t.status = s.status.raiseIf s.cutover.nearDue .cutoverNear ∧ t.links = s.links ∧ t.intake = s.intake ∧
      t.engine = s.engine ∧ t.terminals = s.terminals ∧ t.keys = s.keys ∧ t.accounts = s.accounts ∧ t.qm = s.qm ∧
      t.dispatch = s.dispatch

/-- A close requested of a route: joined to a pending close, made pending on a busy buffer with CLOSE_DEFERRED raised
and logged, made pending on the wrap in flight, or performed. CLOSE BATCH requests a close with reason MANUAL and
answers its outcome: PERFORMED with the close record's identity, or PENDING with the wait, and the reason where a close
was pending already (the reply's form: log 15); outside IDLE it is refused CUTOVER_ACTIVE. DEFERRED_CLOSE performs a
close pending on a FREE buffer, or makes it wait for the wrap in flight; that the row does by itself what an
acknowledgement does in its own event is the model's reading (log 14). CLOSE BATCH refuses a route number above 3 and a
route that is not defined. -/
def Obligations.ClosesRequested : Prop :=
  (∀ (s : State) (r : RouteNo) (why : CloseReason),
     let q := s.queue r
     (∀ p, q.pending = some p → s.requestClose r why = (s, .joined p.reason p.wait)) ∧
     (q.pending = none →
       (q.buffer ≠ none → s.requestClose r why =
         (((s.setQueue r { q with pending := some ⟨why, .buffer, true⟩ }).raise .closeDeferred).logFault .closeDeferred r.val,
           .waits .buffer)) ∧
       (q.buffer = none →
         (s.engine.servesRoute r = true → s.requestClose r why =
           (s.setQueue r { q with pending := some ⟨why, .wrap, false⟩ }, .waits .wrap)) ∧
         (s.engine.servesRoute r = false → s.requestClose r why =
           (s.performClose r why, .performed ⟨r, q.batch, q.nextSeq⟩))))) ∧
  (∀ (id : Identity) (why : CloseReason) (w : CloseWait), (CloseOutcome.performed id).reply = .closed id ∧
    (CloseOutcome.waits w).reply = .closeWaits none w ∧ (CloseOutcome.joined why w).reply = .closeWaits (some why) w) ∧
  (∀ (l : LinkId) (corr : Byte) (s : State), s.Hears l 1 → RefusesRoute (fun b => .closeBatch l corr [b]) l corr s) ∧
  ((∀ (l : LinkId) (corr b : Byte) (r : RouteNo) (s : State), s.Hears l 1 → isPartner l = true →
     s.status.part = .running → b.toNat = r.val → s.defined r = true →
     (s.cutover.stage ≠ .idle → exec (.closeBatch l corr [b]) s = .next (s.answer l corr .cutoverActive)) ∧
     (s.cutover.stage = .idle → exec (.closeBatch l corr [b]) s =
       .next ((s.requestClose r .manual).1.answer l corr .done (s.requestClose r .manual).2.reply))) ∧
   ∀ (s : State) (r : RouteNo) (p : ClosePending), s.supply = .on → (s.queue r).pending = some p → p.wait = .buffer →
     (s.queue r).buffer = none →
     (s.engine.servesRoute r = false →
       exec (.deferredClose r) s = .next (s.performClose r (if p.deferred then .deferred else p.reason))) ∧
     (s.engine.servesRoute r = true → exec (.deferredClose r) s =
       .next (s.setQueue r { s.queue r with pending := some { p with wait := .wrap } })))

/-- A route close performed: the close record with the batch, the next sequence, the times, the totals as they stand and
the subtotals of the route's terminals with a nonzero count, in terminal order; the next batch with sequence 1; the
route's totals and its terminals' totals zeroed, a CLOSING terminal with nothing outstanding VACANT; the pending ceiling
active; flags and pending close cleared. -/
def Obligations.ClosePerformed : Prop :=
  ∀ (s : State) (r : RouteNo) (why : CloseReason),
    let t := s.performClose r why
    let q := s.queue r
    let a := s.account r
    (∃ c, (t.queue r).buffer = some c ∧ c.id = ⟨r, q.batch, q.nextSeq⟩ ∧ c.reason = why ∧ c.opened = q.opened ∧
      c.closed = s.time ∧ c.totals = a.totals ∧ c.offline = a.offline ∧ c.overflow = a.overflow ∧ c.state = .pending ∧
      c.offers = 0 ∧ (c.subtotals.map (·.1)).Pairwise (· < ·) ∧
      ∀ n x, (n, x) ∈ c.subtotals ↔ (s.term n).route = r ∧ x = (s.term n).totals ∧
        (x.saleCount ≠ 0 ∨ x.refundCount ≠ 0 ∨ x.reversalCount ≠ 0 ∨ x.voidCount ≠ 0 ∨ x.offlineCount ≠ 0)) ∧
    (t.queue r).batch = (if q.batch = 65535 then 1 else q.batch + 1) ∧ (t.queue r).nextSeq = 1 ∧
    (t.queue r).opened = s.time ∧ (t.queue r).pending = none ∧ (t.queue r).full = false ∧
    (t.queue r).live = q.live ∧ (t.queue r).store = q.store ∧ (t.queue r).overflow = q.overflow ∧
    t.account r = ⟨Totals.zero, 0, false, a.pending, a.pending⟩ ∧
    (∀ n, (s.term n).route = r →
      let free := (s.term n).state = .closing ∧
        (∀ h ∈ (s.term n).history, h.disposition ≠ .pending ∧ h.disposition ≠ .offered) ∧
        s.engine.servesTerminal n = false
      (free → t.term n = Terminal.vacant) ∧ (¬ free → t.term n = { s.term n with totals := Totals.zero })) ∧
    (∀ n, (s.term n).route ≠ r → t.term n = s.term n) ∧ (∀ x, x ≠ r → t.queue x = s.queue x ∧ t.account x = s.account x) ∧
    t.qm.slots = s.qm.slots ∧ t.qm.poolFree = s.qm.poolFree ∧ t.status = s.status ∧ t.links = s.links ∧
    t.intake = s.intake ∧ t.engine = s.engine ∧ t.keys = s.keys ∧ t.dispatch = s.dispatch ∧ t.cutover = s.cutover

/-- CUTOVER_CLOSING_START leaves WAITING once the engine is IDLE; CUTOVER_ROUTE_CLOSE asks the next defined route to
close with reason SCHEDULED and moves on, entering ROLLING after the last. CUTOVER_FAMILY_ROLL passes a family by,
starts its roll, or logs ROLL_REFUSED; after family 7 the unit is IDLE and CUTOVER_DONE is raised. -/
def Obligations.CutoverProcedure : Prop :=
  ((∀ s : State, s.supply = .on → s.cutover.stage = .waiting → s.engine = .idle →
     exec .cutoverClosingStart s = .next { s with cutover := { s.cutover with stage := .closing } }) ∧
   ∀ (s : State) (r : RouteNo), s.supply = .on → s.cutover.stage = .closing → s.cutover.nextRoute = some r →
     s.defined r = true →
     (∀ q : RouteNo, r < q → s.defined q = true → (∀ x : RouteNo, r < x → x < q → s.defined x = false) →
       exec .cutoverRouteClose s = .next
         { (s.requestClose r .scheduled).1 with cutover := { s.cutover with nextRoute := some q } }) ∧
     ((∀ q : RouteNo, r < q → s.defined q = false) → exec .cutoverRouteClose s = .next
       { (s.requestClose r .scheduled).1 with cutover := { s.cutover with nextRoute := none, stage := .rolling } })) ∧
  (∀ (s : State) (f : FamilyNo), s.supply = .on → s.cutover.stage = .rolling → s.cutover.nextFamily = some f →
     (s.family f).op ≠ .cutoverRoll →
     let k := (s.family f).now
     let mayRoll := (k.state = .active ∨ k.state = .low ∨ k.state = .exhausted) ∧ k.epoch < 65535
     let moved := fun u : State =>
       if h : f.val + 1 < 8 then { u with cutover := { u.cutover with nextFamily := some ⟨f.val + 1, h⟩ } }
       else State.raise
         { u with cutover := { u.cutover with nextFamily := none, matchTime := none, stage := .idle } } .cutoverDone
     (k.rollAtCutover = false → exec .cutoverFamilyRoll s = .next (moved s)) ∧
     (k.rollAtCutover = true → mayRoll → exec .cutoverFamilyRoll s =
       .next (s.setFamily f ⟨{ k with state := .rolling }, .cutoverRoll, some k⟩)) ∧
     (k.rollAtCutover = true → ¬ mayRoll → exec .cutoverFamilyRoll s = .next (moved (s.logFault .rollRefused f.val))))

/-- SET CLOCK writes the clock, clears the unset mark and ends a near warning; SET CUTOVER writes the setting and ends a
near warning. Values out of range are refused BAD_PARAMETER. That a warning due whose row has not been taken raises
CUTOVER_NEAR at the command that ends it is the model's choice (log 3). -/
def Obligations.ClockAndSettingWritten : Prop :=
  ∀ (l : LinkId) (corr : Byte) (s : State), isPartner l = true →
    let raised := s.status.raiseIf s.cutover.nearDue .cutoverNear
    (s.Hears l 5 → s.status.part ≠ .setup → ∀ d1 d0 s2 s1 s0 : Byte,
      (numberOf [s2, s1, s0] < 86400 → exec (.setClock l corr [d1, d0, s2, s1, s0]) s = .next (State.answer
        { s with
          status := raised
          cutover := { s.cutover with
            clock := ⟨numberOf [d1, d0], numberOf [s2, s1, s0]⟩
            unset := false
            near := false
            nearDue := false } } l corr .done)) ∧
      (86400 ≤ numberOf [s2, s1, s0] →
        exec (.setClock l corr [d1, d0, s2, s1, s0]) s = .next (s.answer l corr .badParameter))) ∧
    (s.Hears l 3 → s.status.part = .running → ∀ h m e : Byte,
      (h.toNat ≤ 23 → m.toNat ≤ 59 → e.toNat ≤ 1 → exec (.setCutover l corr [h, m, e]) s = .next (State.answer
        { s with
          status := raised
          cutover := { s.cutover with
            setting := ⟨.hour h.toNat, m.toNat, e == 1#8⟩
            near := false
            nearDue := false } } l corr .done)) ∧
      (h.toNat = 255 → m.toNat ≤ 59 → e.toNat ≤ 1 → exec (.setCutover l corr [h, m, e]) s = .next (State.answer
        { s with
          status := raised
          cutover := { s.cutover with
            setting := ⟨.any, m.toNat, e == 1#8⟩
            near := false
            nearDue := false } } l corr .done)) ∧
      ((24 ≤ h.toNat ∧ h.toNat ≤ 254) ∨ 60 ≤ m.toNat ∨ 2 ≤ e.toNat →
        exec (.setCutover l corr [h, m, e]) s = .next (s.answer l corr .badParameter)))

/-! ### Setup, status and retention -/

/-- Nothing is in transit: every defined route holds no record, its buffer is FREE, no close is pending, its next
sequence is 1; no wrap is in flight and the cut-over is IDLE (R163 check 3). -/
def NothingInTransit (s : State) : Prop :=
  (∀ r, s.defined r = true → let q := s.queue r
    q.live.bottom - q.live.top = 0 ∧ q.store.bottom - q.store.top = 0 ∧ q.overflow = [] ∧ q.buffer = none ∧
    q.pending = none ∧ q.nextSeq = 1) ∧
  s.engine = .idle ∧ s.cutover.stage = .idle

/-- SETUP BEGIN opens a sequence: prior state, staged count and allow flags, every queued request answered NOT_RUNNING
and the queues emptied, a near warning ended; with something in transit it is refused NOT_EMPTY, in SETUP it abandons:
the part takes its prior state and the staged configuration is gone. That the queues are answered from BLANK too is the
model's reading (log 29), and the mark of a warning due, which raises CUTOVER_NEAR
here, its choice (log 3). -/
def Obligations.SetupBegins : Prop :=
  (∀ s : State,
    (s.status.part ≠ .setup → s.abandon = s) ∧
    ∀ prior, s.status.part = .setup → s.status.prior = some prior → s.abandon = { s with status := { s.status with
      part := (match prior with | .blank => .blank | .running => .running)
      prior := none
      staged := none } }) ∧
  ∀ (corr n flags : Byte) (s : State), s.Hears .service 2 →
    (s.status.part = .setup → exec (.setupBegin .service corr [n, flags]) s =
      .next (s.abandon.answer .service corr .sequenceBroken)) ∧
    (s.status.part ≠ .setup →
      (n.toNat = 0 ∨ 4 < n.toNat → exec (.setupBegin .service corr [n, flags]) s =
        .next (s.answer .service corr .badParameter)) ∧
      (1 ≤ n.toNat → n.toNat ≤ 4 →
        (s.status.part = .running → ¬ NothingInTransit s → exec (.setupBegin .service corr [n, flags]) s =
          .next (s.answer .service corr .notEmpty)) ∧
        (s.status.part = .blank ∨ NothingInTransit s →
          ∃ t, exec (.setupBegin .service corr [n, flags]) s = .next t ∧
            t.status = { s.status.raiseIf s.cutover.nearDue .cutoverNear with
              part := .setup
              prior := some (if s.status.part = .running then .running else .blank)
              staged := some ⟨n.toNat, (List.range n.toNat).map fun i => flags.getLsbD i, []⟩ } ∧
            (∀ i, t.lane i = { s.lane i with queue := [] } ∧ t.link (.lane i) = { s.link (.lane i) with
              queue := (s.link (.lane i)).queue ++
                (s.lane i).queue.map fun q => .run (.answer q.corr .notRunning .bare) [] }) ∧
            t.intake.rotation = s.intake.rotation ∧
            t.link .service = (s.link .service).push (.run (.answer corr .done .bare) []) ∧
            t.link .dispatch = s.link .dispatch ∧
            t.cutover = { s.cutover with near := false, nearDue := false, matchDue := none } ∧ t.engine = s.engine ∧
            t.terminals = s.terminals ∧ t.keys = s.keys ∧ t.accounts = s.accounts ∧ t.qm = s.qm ∧
            t.dispatch = s.dispatch)))

/-- The fields of a ROUTE DEFINE are in range (R164). -/
def DefineInRange (b : DefineBytes) : Prop :=
  (4 ≤ b.k.toNat ∧ b.k.toNat ≤ 10) ∧ b.fraction.toNat ≤ 3 ∧ b.rounding.toNat ≤ 1 ∧ 1 ≤ b.plus.toNat ∧
  (1 ≤ b.minus.toNat ∧ b.minus.toNat ≤ b.plus.toNat) ∧ (1 ≤ b.init.toNat ∧ b.init.toNat ≤ b.plus.toNat) ∧
  (1 ≤ b.window.toNat ∧ b.window.toNat ≤ 32) ∧ (b.tagStart.toNat ≤ b.tagEnd.toNat ∧ b.tagEnd.toNat ≤ 7) ∧
  b.highWater ≤ 1024 ∧ ∀ d ∈ nibblesOf b.ceiling, d ≤ 9

/-- The configuration a ROUTE DEFINE carries (R164). -/
def definedAs (b : DefineBytes) (allow : Bool) : RouteConfig :=
  ⟨b.k.toNat, b.fraction.toNat, if b.rounding = 0#8 then .halfUp else .down, b.plus.toNat, b.minus.toNat, b.init.toNat,
    b.window.toNat, b.tagStart.toNat, b.tagEnd.toNat, b.timeout.toNat, min b.highWater (2 ^ b.k.toNat),
    decimal (nibblesOf b.ceiling), allow⟩

/-- ROUTE DEFINE of the expected route with every field in range is staged, its high-water room clamped; a field out of
range or a route out of place abandons the sequence; outside SETUP it is refused. Its fields lie in its 19 bytes as the
kind table says. -/
def Obligations.RouteDefinesStaged : Prop :=
  ((∀ r k fr ro pl mi i w ts te tmo h1 h0 a b c d e f : Byte,
      parseDefine [r, k, fr, ro, pl, mi, i, w, ts, te, tmo, h1, h0, a, b, c, d, e, f] =
        some ⟨r, k, fr, ro, pl, mi, i, w, ts, te, tmo, numberOf [h1, h0], [a, b, c, d, e, f]⟩) ∧
    ∀ p : List Byte, p.length ≠ 19 → parseDefine p = none) ∧
  ∀ (corr : Byte) (p : List Byte) (b : DefineBytes) (s : State), s.Hears .service 19 → p.length = 19 →
    parseDefine p = some b →
    let go := exec (.routeDefine .service corr p) s
    (s.status.part ≠ .setup → go = .next (s.answer .service corr .sequenceBroken)) ∧
    ∀ g, s.status.part = .setup → s.status.staged = some g →
      (b.route.toNat ≠ g.routes.length ∨ g.count ≤ g.routes.length →
        go = .next (s.abandon.answer .service corr .sequenceBroken)) ∧
      (b.route.toNat = g.routes.length → g.routes.length < g.count →
        let allow := (g.allow[g.routes.length]?).getD false
        (¬ DefineInRange b → go = .next (s.abandon.answer .service corr .badParameter)) ∧
        (DefineInRange b → (definedAs b allow).Ok ∧
          go = .next (State.answer { s with status := { s.status with
            staged := some { g with routes := g.routes ++ [definedAs b allow] } } } .service corr .done
              (.staged (definedAs b allow).highWater))))

/-- SETUP END with every route staged and a layout that fits brings the configuration into force: routes DOWN with
reason START, the pool's free list in increasing order, kept routes keeping batch and opened time, ceilings as defined,
terminals of routes removed HELD with empty history; otherwise the sequence is abandoned. Outside SETUP it is refused
SEQUENCE_BROKEN. The store rings lie one after another from slot 64, the pool after them. That a terminal whose route
was not defined before is unchanged, and the values of a route that is not defined, are the model's readings (logs 31
and 20). -/
def Obligations.SetupEndsInForce : Prop :=
  (∀ (corr : Byte) (s : State), s.Hears .service 0 → s.status.part ≠ .setup →
    exec (.setupEnd .service corr []) s = .next (s.answer .service corr .sequenceBroken)) ∧
  (∀ g : Staged, poolStart g.config = 64 + ((g.routes.take 4).map fun c => 2 ^ c.k).sum ∧
    ∀ (r : RouteNo) (c : RouteConfig), g.routes[r.val]? = some c →
      storePlace g.config r = ⟨64 + ((g.routes.take r.val).map fun c => 2 ^ c.k).sum, 2 ^ c.k⟩) ∧
  ∀ (corr : Byte) (g : Staged) (s : State), s.Hears .service 0 → s.status.part = .setup → s.status.staged = some g →
    let go := exec (.setupEnd .service corr []) s
    let new := g.config
    (g.routes.length < g.count → go = .next (s.abandon.answer .service corr .sequenceBroken)) ∧
    (g.count ≤ g.routes.length →
      (2048 < poolStart new → go = .next (s.abandon.answer .service corr .layoutTooLarge)) ∧
      (poolStart new ≤ 2048 → ∃ t, go = .next t ∧
        t.status = { s.status with config := new, part := .running, prior := none, staged := none } ∧
        t.qm.slots = [] ∧ t.qm.poolFree = List.range' (poolStart new) (2048 - poolStart new) ∧
        (∀ r c, Vec.get new r = some c →
          t.route r = ⟨.down .start, c.init, [], 0, .stopped, none⟩ ∧
          t.account r = ⟨Totals.zero, 0, false, c.ceiling, c.ceiling⟩ ∧
          (s.defined r = true → t.queue r =
            ⟨(s.queue r).batch, 1, (s.queue r).opened, ⟨0, 0, 0⟩, ⟨0, 0, 0⟩, [], none, none, false⟩) ∧
          (s.defined r = false → t.queue r = ⟨1, 1, s.time, ⟨0, 0, 0⟩, ⟨0, 0, 0⟩, [], none, none, false⟩)) ∧
        (∀ r, Vec.get new r = none → (t.route r).stream = none ∧ t.account r = ⟨Totals.zero, 0, false, 0, 0⟩) ∧
        (∀ n, s.defined (s.term n).route = true → Vec.get new (s.term n).route = none →
          t.term n = { s.term n with
            state := (if (s.term n).state = .active then .held else (s.term n).state)
            history := [] }) ∧
        (∀ n, s.defined (s.term n).route = false ∨ (Vec.get new (s.term n).route).isSome →
          t.term n = s.term n) ∧
        t.link .service = (s.link .service).push (.run (.answer corr .done .bare) []) ∧
        t.intake = s.intake ∧ t.engine = s.engine ∧ t.keys = s.keys ∧ t.cutover = s.cutover))

/-- The items of STATUS READ (R168). -/
def reportedStatus (s : State) : StatusReport :=
  { flags := s.status.flags
    enables := s.status.enables
    part := s.status.part
    prior := s.status.prior
    position := s.status.staged.map fun g => if g.routes.length < g.count then g.routes.length else 4
    clock := s.cutover.clock
    unset := s.cutover.unset
    setting := s.cutover.setting
    stage := s.cutover.stage
    matchTime := s.cutover.matchTime
    nextRoute := s.cutover.nextRoute
    nextFamily := s.cutover.nextFamily
    near := s.cutover.near
    logged := s.status.log.length
    overrun := s.status.overrun
    lane := (match s.engine with
      | .busy _ w => some w.lane
      | _ => none)
    routes := (List.finRange 4).map fun r => (s.config r).map fun c =>
      let q := s.queue r
      ⟨(s.route r).state, q.batch, q.nextSeq, recordsIn s r .pending, recordsIn s r .offered, recordsIn s r .acked,
        s.storeRoom r, decide (s.ringRoom r ≤ c.highWater), q.buffer.map (·.state), q.pending.map (·.reason), q.full,
        (s.account r).overflow⟩ }

/-- Raising an event, writing to the fault log and the alert line (R167, R169). -/
def EventsAndLog (s : State) : Prop :=
  (∀ e f : EventFlag, holdsFlag (s.raise e).status.flags f = (decide (e = f) || holdsFlag s.status.flags f)) ∧
  (∀ e : EventFlag, s.raise e = { s with status := { s.status with flags := (s.raise e).status.flags } }) ∧
  (∀ (c : Bool) (e : EventFlag), s.status.raiseIf c e = if c then (s.raise e).status else s.status) ∧
  (∀ (code : FaultCode) (unit : Nat),
    let entry : FaultEntry := ⟨code, s.time, unit⟩
    (s.status.log.length < 16 → s.logFault code unit = (({ s with status := { s.status with
      log := s.status.log ++ [entry] } } : State).raise .faultLogged)) ∧
    (16 ≤ s.status.log.length → s.logFault code unit = (({ s with status := { s.status with
      log := s.status.log.tail ++ [entry]
      overrun := true } } : State).raise .faultLogged))) ∧
  (s.alertLine = true ↔ ∃ e : EventFlag, holdsFlag s.status.flags e = true ∧ holdsFlag s.status.enables e = true)

/-- STATUS READ writes the enables of its list, answers the report with the flags before clearing, and clears them;
FAULT READ takes the oldest entry, or answers EMPTY with the overrun mark and clears it. Raising a flag sets it and no
other; a write to the fault log adds its entry at the end, of a full log the oldest going and the overrun mark being
set, and raises FAULT_LOGGED; the alert line is asserted while a flag is both set and enabled. That the counts of a
route's block are of data records alone is the model's reading (log 16). -/
def Obligations.StatusAndFaultReads : Prop :=
  (∀ s : State, EventsAndLog s) ∧
  ∀ (l : LinkId) (corr : Byte) (s : State), isPartner l = true →
    (s.Hears l 0 →
      exec (.statusRead l corr []) s = .next (State.answer
        { s with status := { s.status with flags := 0#11 } } l corr .done (.status (reportedStatus s))) ∧
      (∀ entry rest, s.status.log = entry :: rest → exec (.faultRead l corr []) s = .next (State.answer
        { s with status := { s.status with
          log := rest
          overrun := s.status.overrun && !rest.isEmpty } } l corr .done (.fault entry rest.length s.status.overrun))) ∧
      (s.status.log = [] → exec (.faultRead l corr []) s = .next (State.answer
        { s with status := { s.status with overrun := false } } l corr .empty (.noFault s.status.overrun)))) ∧
    (s.Hears l 2 → ∀ hi lo : Byte,
      let on := { s with status := { s.status with enables := BitVec.ofNat 11 (numberOf [hi, lo]) } }
      exec (.statusRead l corr [hi, lo]) s = .next (State.answer
        { on with status := { on.status with flags := 0#11 } } l corr .done (.status (reportedStatus on))))

/-- ERASE empties every retained item, clears flags and fault log, sets every enable, answers NOT_RUNNING to a wrap in
flight and to queued requests, removes empty places on every link and keeps the messages, and is answered DONE after
what stands in the queue. The order of a wrap's answer before the queued ones is the model's (log 17). -/
def Obligations.EraseEmpties : Prop :=
  ∀ (corr : Byte) (s : State), s.Hears .service 0 →
    ∃ t, exec (.erase .service corr []) s = .next t ∧
      t.status = StatusUnit.blank ∧ t.terminals = State.reset.terminals ∧ t.keys = State.reset.keys ∧
      t.accounts = State.reset.accounts ∧ t.qm = State.reset.qm ∧ t.dispatch = State.reset.dispatch ∧
      t.cutover = State.reset.cutover ∧ t.intake = State.reset.intake ∧ t.engine = .idle ∧ t.valid = true ∧
      t.alertLine = false ∧ t.supply = s.supply ∧
      t.link .service = { s.link .service with
        queue := (s.link .service).queue.filter (fun e => !e.isPlace) ++ [.run (.answer corr .done .bare) []] } ∧
      t.link .dispatch = { s.link .dispatch with queue := (s.link .dispatch).queue.filter fun e => !e.isPlace } ∧
      (∀ e : QueueEntry, e.isPlace = true ↔ ∃ f c, e = .place f c) ∧
      (∀ i, (∀ k w, s.engine = .busy k w → w.lane = i → w.discarded = false →
          s.engine.eraseAnswers i = [.answer w.corr .notRunning .bare]) ∧
        ((∀ k w, s.engine = .busy k w → w.lane ≠ i ∨ w.discarded = true) → s.engine.eraseAnswers i = [])) ∧
      ∀ i, t.link (.lane i) = { s.link (.lane i) with
        queue := (s.link (.lane i)).queue.filter (fun e => !e.isPlace) ++
          ((s.engine.eraseAnswers i ++ (s.lane i).queue.map fun q => Message.answer q.corr .notRunning .bare).map
            fun m => QueueEntry.run m []) }

/-- No close of the route is due at a restore: none is pending on a wrap in flight with the buffer FREE (R113). -/
def NoCloseDue (s : State) (r : RouteNo) : Prop :=
  ∀ p, (s.queue r).pending = some p → p.wait = .buffer ∨ (s.queue r).buffer ≠ none

/-- A close record after a rewind (R104). -/
def rewoundClose (c : CloseRecord) : CloseRecord := if c.state = .offered then { c with state := .pending } else c

/-- A route's close performed at a restore, its close record aside (R109, R113). -/
def CloseDone (s t : State) (r : RouteNo) (why : CloseReason) : Prop :=
  (t.queue r).batch = nextBatch (s.queue r).batch ∧ (t.queue r).nextSeq = 1 ∧ (t.queue r).pending = none ∧
  (t.queue r).full = false ∧ (t.queue r).opened = s.time ∧
  t.account r = ⟨Totals.zero, 0, false, (s.account r).pending, (s.account r).pending⟩ ∧
  ∃ c, (t.queue r).buffer = some c ∧ c.id = ⟨r, (s.queue r).batch, (s.queue r).nextSeq⟩ ∧ c.reason = why ∧
    c.state = .pending ∧ c.totals = (s.account r).totals ∧ c.offline = (s.account r).offline

/-- A route's account and queue state kept by a restore, but for the offer points and the rewound close record (R56,
R113). -/
def RouteKept (s t : State) (r : RouteNo) : Prop :=
  t.account r = s.account r ∧ t.queue r = { s.queue r with
    live := (t.queue r).live
    store := (t.queue r).store
    buffer := (s.queue r).buffer.map rewoundClose }

/-- A terminal entry after the rewinds of a restore: the history entries of its OFFERED records are PENDING (R20). -/
def rewoundEntry (s : State) (n : TerminalNo) : Terminal :=
  { s.term n with history := (s.term n).history.map fun h =>
      if h.disposition = .offered ∧ ((List.finRange 4).any fun r => rewoundRecord s r n h.id) = true then
        { h with disposition := .pending }
      else h }

/-- What a restore makes of the blocks that are not retained, and of the Status and Setup Unit (R172). -/
def RestoreStarts (straps : BitVec 6) (s t : State) : Prop :=
  t.supply = .on ∧ t.valid = s.valid ∧ t.engine = .idle ∧
  holdsFlag t.status.flags .restored = true ∧ t.status.enables = s.status.enables ∧
  t.status.config = s.status.config ∧ t.status.staged = none ∧
  (s.status.part ≠ .setup → t.status.part = s.status.part) ∧
  (∀ prior, s.status.part = .setup → s.status.prior = some prior → t.status.part = prior.part) ∧
  (∀ r c, s.config r = some c → t.route r = ⟨.down .restore, c.init, [], 0, .stopped, none⟩) ∧
  t.intake = Intake.start ∧
  (∀ l, t.link l = ⟨if (s.link l).low then .inBreak else .hunting, (s.link l).low,
    straps.getLsbD (linkIndex l).val, [], none, 3⟩) ∧
  t.time = s.time ∧ t.cutover.unset = s.cutover.unset ∧ t.cutover.setting = s.cutover.setting ∧
  t.cutover.stage = .idle ∧ t.cutover.near = false ∧
  (s.cutover.stage = .idle → (∀ f, (s.family f).op ≠ .cutoverRoll) →
    t.status.flags = EventFlag.restored.mask ∧ t.status.log = [] ∧ t.status.overrun = false)

/-- What a restore makes of the record store, the pool and the rings (R94, R113). -/
def RestoreRecords (s t : State) : Prop :=
  (∀ n, t.at? n = (s.at? n).map fun rec =>
    if rec.state = .offered ∧ ((List.finRange 4).any fun r => decide (n ∈ s.slotsOf r)) = true then
      { rec with state := .pending }
    else rec) ∧
  (∀ k n, s.engine.kept = some k → k.slot = .pool n → t.qm.poolFree = s.qm.poolFree ++ [n]) ∧
  ((∀ k n, s.engine.kept = some k → k.slot ≠ .pool n) → t.qm.poolFree = s.qm.poolFree) ∧
  ∀ r, OfferPointSet (s.queue r).live (t.queue r).live (livePlace r) t.qm.slots ∧
    OfferPointSet (s.queue r).store (t.queue r).store (s.storePlace r) t.qm.slots ∧
    (t.queue r).overflow = (s.queue r).overflow

/-- What a restore makes of batches, accounts and terminals where no cut-over was under way (R20, R56, R94, R113). -/
def RestoreBatches (s t : State) : Prop :=
  s.cutover.stage = .idle →
    (∀ r, NoCloseDue s r → RouteKept s t r) ∧
    (∀ r p, (s.queue r).pending = some p → p.wait = .wrap → (s.queue r).buffer = none →
      CloseDone s t r (if p.deferred then .deferred else p.reason)) ∧
    ∀ n, let e := rewoundEntry s n
      let e' := { e with totals := Totals.zero }
      (NoCloseDue s (s.term n).route →
        (PassesRelease .idle n e → t.term n = Terminal.vacant) ∧ (¬ PassesRelease .idle n e → t.term n = e)) ∧
      (¬ NoCloseDue s (s.term n).route →
        (PassesRelease .idle n e' → t.term n = Terminal.vacant) ∧ (¬ PassesRelease .idle n e' → t.term n = e'))

/-- What a restore makes of the key families where no cut-over was under way, and of a cut-over roll (R37). -/
def RestoreFamilies (s t : State) : Prop :=
  (s.cutover.stage = .idle → ∀ f,
    ((s.family f).op = .none → t.family f = s.family f) ∧
    ((s.family f).op = .load ∨ (s.family f).op = .gatewayRoll → ∀ prior, (s.family f).prior = some prior →
      t.family f = ⟨prior, .none, none⟩)) ∧
  ∀ f, (s.family f).op = .cutoverRoll →
    (∀ prior, (s.family f).prior = some prior → t.family f = ⟨prior, .none, none⟩) ∧
    (s.cutover.stage = .rolling → (∀ g, (s.family g).op = .cutoverRoll → g = f) →
      (∃ more, t.status.log = ⟨.rollLost, s.time, f.val⟩ :: more) ∧ holdsFlag t.status.flags .faultLogged = true)

/-- A cut-over that was under way is resumed and run to its end: the routes from the next route on asked once each, the
families from the next family on given their turn (R147). -/
def RestoreResumes (s t : State) : Prop :=
  s.cutover.stage ≠ .idle →
    holdsFlag t.status.flags .cutoverDone = true ∧
    t.cutover.matchTime = none ∧ t.cutover.nextRoute = none ∧ t.cutover.nextFamily = none ∧
    (s.cutover.stage = .rolling → ∀ r, NoCloseDue s r → RouteKept s t r) ∧
    (s.cutover.stage ≠ .rolling → ∀ first, s.cutover.nextRoute = some first → ∀ r,
      (r < first ∨ s.defined r = false → NoCloseDue s r → RouteKept s t r) ∧
      (first ≤ r → s.defined r = true → (s.queue r).pending = none →
        ((s.queue r).buffer = none → CloseDone s t r .scheduled) ∧
        ((s.queue r).buffer ≠ none → t.account r = s.account r ∧ (t.queue r).batch = (s.queue r).batch ∧
          (t.queue r).pending = some ⟨.scheduled, .buffer, true⟩))) ∧
    ((∀ g, (s.family g).op ≠ .cutoverRoll) → ∀ first, s.cutover.nextFamily = some first → ∀ f, (s.family f).op = .none →
      let k := (s.family f).now
      let rolls := first ≤ f ∧ k.rollAtCutover = true ∧
        (k.state = .active ∨ k.state = .low ∨ k.state = .exhausted) ∧ k.epoch < 65535
      (rolls → t.family f = ⟨{ k with
        state := if k.ceiling ≤ k.low then .low else .active
        epoch := k.epoch + 1
        counter := 0
        root := k.root.map Config.rollRoot }, .none, none⟩) ∧
      (¬ rolls → t.family f = s.family f))

/-- A warm restore: flags cleared but RESTORED and what a resumed cut-over raises, every route DOWN with reason RESTORE
with e at drain init, nothing offered, no wrap in flight, links and intake at their start, the clock, the setting and
the configuration kept, the cut-over IDLE. Every OFFERED record is PENDING with its history entry, the reserved pool
slot is at the back of the free list, a close due on the abandoned wrap is performed, accounts and batches are kept
otherwise, CLOSING terminals are release-tested; families without an operation stand, loads and rolls are undone, a
cut-over roll with ROLL_LOST logged. An interrupted cut-over is resumed inside the restore, its rolls completing at once
as the model reads it (log 19). POWER_LOSS and then WARM_RESTORE come to the same as a release of the RESET line: what
is not retained plays no part. The model's own: that each link takes its rate from a bit of straps that the command
carries (its choice, log 8), that a powered part takes WARM_RESTORE (its reading, log 9), and that a held RESET line is
forgotten at POWER_LOSS (its choice, log 33). -/
def Obligations.WarmRestore : Prop :=
  (∀ (straps : BitVec 6) (s : State), s.supply ≠ .off ∨ s.valid = true →
     ∃ t, exec (.warmRestore straps) s = .next t ∧ RestoreStarts straps s t ∧ RestoreRecords s t ∧ RestoreBatches s t ∧
       RestoreFamilies s t ∧ RestoreResumes s t) ∧
  (∀ (straps : BitVec 6) (s t : State), s.supply ≠ .off → s.valid = true → exec .powerLoss s = .next t →
     exec (.warmRestore straps) t = exec (.warmRestore straps) s)

/-- The pins: POWER_LOSS leaves the part without supply and keeps every retained item, a near warning in force among
them, which the restore then ends (`RestoreStarts`); RETENTION_LOSS makes the mark invalid; RESET_LINE holds the part;
STORE_LOST at power-up with an invalid mark gives the values of lost retention. That RETENTION_LOSS of a powered part
changes nothing else (log 28), the state of a part without supply (log 9), the idle lines of `State.reset` (log 6), the
straps as an operand (log 8) and the RESET line not followed without supply (log 33) are the model's choices and
readings. -/
def Obligations.PinsAndLostRetention : Prop :=
  (∀ s : State, s.supply ≠ .off → ∃ t, exec .powerLoss s = .next t ∧ t.supply = .off ∧ t.valid = s.valid ∧
    t.status.part = s.status.part ∧ t.status.prior = s.status.prior ∧ t.status.config = s.status.config ∧
    t.status.enables = s.status.enables ∧ t.terminals = s.terminals ∧ t.keys.families = s.keys.families ∧ t.qm = s.qm ∧
    t.accounts = s.accounts ∧ t.time = s.time ∧ t.cutover.unset = s.cutover.unset ∧
    t.cutover.setting = s.cutover.setting ∧ t.cutover.stage = s.cutover.stage ∧
    t.cutover.matchTime = s.cutover.matchTime ∧ t.cutover.nextRoute = s.cutover.nextRoute ∧
    t.cutover.nextFamily = s.cutover.nextFamily ∧ t.cutover.near = s.cutover.near ∧ (∀ k w, s.engine = .busy k w → t.engine = .cut k)) ∧
  (∀ s : State, exec .retentionLoss s = .next { s with valid := false }) ∧
  (∀ s : State, s.supply = .on → exec .resetLine s = .next { s with supply := .held }) ∧
  ∀ (straps : BitVec 6) (s : State), s.supply = .off → s.valid = false →
    ∃ t, exec (.storeLost straps) s = .next t ∧
      t = { State.reset with pending := s.pending, links := t.links } ∧
      ∀ l, t.link l = ⟨if (s.link l).low then .inBreak else .hunting, (s.link l).low,
        straps.getLsbD (linkIndex l).val, [], none, 3⟩

/-! ### Invariants -/

/-- Every invariant holds right after reset. -/
def Obligations.InvariantsHoldAtReset : Prop :=
  State.reset.KeysOk ∧ State.reset.QueuesOk ∧ State.reset.DispatchOk ∧ State.reset.TerminalsOk ∧ State.reset.AccountsOk ∧
  State.reset.StoreOk ∧ State.reset.CutoverOk ∧ State.reset.SetupOk

/-- Every step keeps the key families in order: no counter passes its ceiling, a serving family is EXHAUSTED exactly
when its counter equals its ceiling. -/
def Obligations.StepKeepsKeysOk : Prop := ∀ s t : State, s.KeysOk → step s = .next t → t.KeysOk

/-- Every step keeps the intake queues at 8, the lanes' response queues at 41 and the partner links' at 36. -/
def Obligations.StepKeepsQueuesOk : Prop := ∀ s t : State, s.QueuesOk → step s = .next t → t.QueuesOk

/-- Every step keeps e from 1 to drain plus, the offered list within W, and a DOWN route with nothing offered. -/
def Obligations.StepKeepsDispatchOk : Prop := ∀ s t : State, s.DispatchOk → step s = .next t → t.DispatchOk

/-- Every step keeps VACANT entries empty and history lists at 8 entries of distinct till sequences. -/
def Obligations.StepKeepsTerminalsOk : Prop := ∀ s t : State, s.TerminalsOk → step s = .next t → t.TerminalsOk

/-- Every step keeps each route's offline sum within its active ceiling and every sum within its limit. -/
def Obligations.StepKeepsAccountsOk : Prop := ∀ s t : State, s.AccountsOk → step s = .next t → t.AccountsOk

/-- Every step keeps the record store's canonical form within its 2,048 slots. -/
def Obligations.StepKeepsStoreOk : Prop := ∀ s t : State, s.StoreOk → step s = .next t → t.StoreOk

/-- Every step keeps the clock in range and the procedure's fields as its stage says. -/
def Obligations.StepKeepsCutoverOk : Prop := ∀ s t : State, s.CutoverOk → step s = .next t → t.CutoverOk

/-- Every step keeps the prior state and the staged configuration absent outside SETUP and the fault log at 16 entries. -/
def Obligations.StepKeepsSetupOk : Prop := ∀ s t : State, s.SetupOk → step s = .next t → t.SetupOk
end

