-- ==== Sys2Proof/Laws/Framing.lean ====
section
/-! SUPPORT. The laws of framing: a number and its bytes, the escaping a receiver undoes, the beginning it holds (R151, R174). -/

namespace Sys2Proof.Machine

@[simp] theorem bigEndian_length (k v : Nat) : (bigEndian k v).length = k := by
  induction k with
  | zero => rfl
  | succ k ih => simp [bigEndian, ih]

/-- A number with one more byte at its end (R174). -/
theorem numberOf_append_one (bs : List Byte) (b : Byte) : numberOf (bs ++ [b]) = 256 * numberOf bs + b.toNat := by
  simp [numberOf, List.foldl_append]

/-- A number by its first byte (R174). -/
theorem numberOf_cons (b : Byte) (bs : List Byte) : numberOf (b :: bs) = b.toNat * 256 ^ bs.length + numberOf bs := by
  have h : ∀ (bs : List Byte) (n : Nat), bs.foldl (fun n b => 256 * n + b.toNat) n = n * 256 ^ bs.length + numberOf bs := by
    intro bs
    induction bs with
    | nil => intro n; simp [numberOf]
    | cons b bs ih =>
      intro n
      have e : numberOf (b :: bs) = b.toNat * 256 ^ bs.length + numberOf bs := by
        have := ih b.toNat
        simpa [numberOf] using this
      rw [List.foldl_cons, ih, e, List.length_cons, pow_succ]
      ring
  simpa [numberOf] using h bs b.toNat

/-- The bytes of a number read back give it, modulo what they can hold (R174). -/
theorem numberOf_bigEndian (k n : Nat) : numberOf (bigEndian k n) = n % 256 ^ k := by
  induction k with
  | zero => simp [bigEndian, numberOf, Nat.mod_one]
  | succ k ih =>
    have hb : (BitVec.ofNat 8 (n / 256 ^ k)).toNat = n / 256 ^ k % 256 := rfl
    have hm : n % 256 ^ (k + 1) = n % 256 ^ k + 256 ^ k * (n / 256 ^ k % 256) := by rw [Nat.pow_succ, Nat.mod_mul]
    rw [bigEndian, numberOf_cons, ih, bigEndian_length, hb, hm, Nat.mul_comm (256 ^ k), Nat.add_comm]

/-- A number read from its two bytes (R174). -/
theorem numberOf_bigEndian_two {v : Nat} (h : v < 65536) : numberOf (bigEndian 2 v) = v :=
  (numberOf_bigEndian 2 v).trans (Nat.mod_eq_of_lt h)

theorem crcBytes_length (bs : List Byte) : (crcBytes bs).length = 2 := bigEndian_length _ _

/-- A number read from two bytes is below 65,536. -/
theorem numberOf_two_lt (a b : Byte) : numberOf [a, b] < 65536 := by
  have ha := a.isLt
  have hb := b.isLt
  simp only [numberOf, List.foldl_cons, List.foldl_nil]
  omega

/-- Escaping acts byte by byte (R151). -/
theorem escapeAll_append (a b : List Byte) : escapeAll (a ++ b) = escapeAll a ++ escapeAll b := by
  simp [escapeAll]

/-- What a receiver goes on to with the characters that are left: it stops at the first thing made known. -/
def goOn (largest : Nat) (x : Receiver × Heard) (rest : List LineChar) : Receiver × Heard :=
  match x with
  | (r, .nothing) => r.hearAll largest rest
  | (r, h) => (r, h)

theorem hearAll_cons (largest : Nat) (r : Receiver) (c : LineChar) (cs : List LineChar) :
    r.hearAll largest (c :: cs) = goOn largest (r.hear largest c) cs := by
  rw [Receiver.hearAll]
  rcases r.hear largest c with ⟨r', h⟩
  cases h <;> rfl

/-- A receiver that takes the escaped form of a byte takes the byte (R151). -/
theorem hearAll_escapeOne (largest : Nat) (taken : List Byte) (b : Byte) (rest : List LineChar) :
    Receiver.hearAll largest (.receiving taken false) ((escapeOne b).map .byte ++ rest) =
      goOn largest (takeByte largest taken b) rest := by
  unfold escapeOne
  by_cases h1 : b = startMarker
  · subst h1
    rfl
  · by_cases h2 : b = escapeByte
    · subst h2
      rfl
    · rw [if_neg (by simp [h1, h2]), List.map_cons, List.map_nil, List.cons_append, List.nil_append, hearAll_cons]
      simp [Receiver.hear, h1, h2]

/-- A receiver holds the beginning of a frame exactly when what it has taken stands before a next byte of the frame, an escaped
one after an escape byte (R151). -/
theorem begins_iff (taken : List Byte) (esc : Bool) (body : List Byte) :
    (Receiver.receiving taken esc).begins body = true ↔
      ∃ next rest, frameBytes body = taken ++ next :: rest ∧ (esc = true → next = startMarker ∨ next = escapeByte) := by
  unfold Receiver.begins
  dsimp only
  constructor
  · intro h
    split at h
    · rename_i next rest hd
      rw [Bool.and_eq_true, List.isPrefixOf_iff_prefix] at h
      obtain ⟨⟨tail, ht⟩, he⟩ := h
      have : tail = next :: rest := by rw [← ht, List.drop_left] at hd; exact hd
      exact ⟨next, rest, by rw [← this, ht], fun e => by simpa [e] using he⟩
    · cases h
  · rintro ⟨next, rest, hf, he⟩
    rw [hf, List.drop_left]
    dsimp only
    rw [Bool.and_eq_true, List.isPrefixOf_iff_prefix]
    refine ⟨⟨_, rfl⟩, ?_⟩
    cases esc
    · rfl
    · simpa using he rfl

end Sys2Proof.Machine
end

