-- ==== Sys2Proof/Laws/Formats.lean ====
section
/-! SUPPORT. The laws of packed fields and of the messages' layouts (R40, R174 to R178). -/

namespace Sys2Proof.Machine

/-! ### Packed fields -/

/-- The nibbles of bytes by their first (R174). -/
theorem nibblesOf_cons (b : Byte) (bs : List Byte) : nibblesOf (b :: bs) = b.toNat / 16 :: b.toNat % 16 :: nibblesOf bs := by
  simp [nibblesOf]

/-- Decimal digits with one more at their end (R40). -/
theorem decimal_append_one (ds : List Nat) (d : Nat) : decimal (ds ++ [d]) = 10 * decimal ds + d := by
  simp [decimal, List.foldl_append]

/-- Decimal digits by their first (R40). -/
theorem decimal_cons (d : Nat) (ds : List Nat) : decimal (d :: ds) = d * 10 ^ ds.length + decimal ds := by
  have h : ∀ (ds : List Nat) (n : Nat), ds.foldl (fun n d => 10 * n + d) n = n * 10 ^ ds.length + decimal ds := by
    intro ds
    induction ds with
    | nil => intro n; simp [decimal]
    | cons d ds ih =>
      intro n
      have e : decimal (d :: ds) = d * 10 ^ ds.length + decimal ds := by
        have := ih d
        simpa [decimal] using this
      rw [List.foldl_cons, ih, e, List.length_cons, pow_succ]
      ring
  simpa [decimal] using h ds d

/-- A byte has two nibbles. -/
@[simp] theorem nibblesOf_length (bs : List Byte) : (nibblesOf bs).length = 2 * bs.length := by
  induction bs with
  | nil => rfl
  | cons b bs ih => rw [nibblesOf_cons]; simp [ih]; omega

/-- A packed field has the bytes asked for (R174). -/
@[simp] theorem packed_length (k n : Nat) : (packed k n).length = k := by
  induction k with
  | zero => rfl
  | succ k ih => simp [packed, ih]

/-- The digits of a packed field by its first byte (R174). -/
theorem packed_nibbles (k n : Nat) : nibblesOf (packed (k + 1) n) =
    n / 100 ^ k % 100 / 10 :: n / 100 ^ k % 10 :: nibblesOf (packed k n) := by
  rw [packed, nibblesOf_cons, BitVec.toNat_ofNat]
  have h1 : n / 100 ^ k % 100 / 10 < 10 := by omega
  have h2 : n / 100 ^ k % 10 < 10 := Nat.mod_lt _ (by norm_num)
  generalize n / 100 ^ k % 100 / 10 = a at *
  generalize n / 100 ^ k % 10 = b at *
  have : (a * 16 + b) % 2 ^ 8 = a * 16 + b := Nat.mod_eq_of_lt (by norm_num; omega)
  rw [this]
  congr 1
  · omega
  · congr 1; omega

/-- A packed field holds decimal digits (R174). -/
theorem packed_digits (k n : Nat) : ∀ d ∈ nibblesOf (packed k n), d ≤ 9 := by
  induction k with
  | zero => simp [packed, nibblesOf]
  | succ k ih =>
    intro d hd
    rw [packed_nibbles] at hd
    rcases List.mem_cons.mp hd with h | h
    · omega
    · rcases List.mem_cons.mp h with h | h
      · omega
      · exact ih d h

/-- A packed field read back gives its number, modulo what it can hold (R174). -/
theorem decimal_packed (k n : Nat) : decimal (nibblesOf (packed k n)) = n % 100 ^ k := by
  induction k with
  | zero => simp [packed, nibblesOf, decimal, Nat.mod_one]
  | succ k ih =>
    have hk : (10 : Nat) ^ (2 * k) = 100 ^ k := by rw [Nat.pow_mul]
    rw [packed_nibbles, decimal_cons, decimal_cons, ih, List.length_cons, nibblesOf_length, packed_length, Nat.pow_succ 10, hk,
      Nat.pow_succ, Nat.mod_mul]
    have h : n / 100 ^ k % 100 = n / 100 ^ k % 100 / 10 * 10 + n / 100 ^ k % 10 := by omega
    generalize hx : n / 100 ^ k = x at *
    conv_rhs => rw [h]
    ring

/-- A packed field is read exactly when its digits are decimal (R3). -/
theorem packedOf_eq (bs : List Byte) :
    packedOf bs = if ∀ d ∈ nibblesOf bs, d ≤ 9 then some (decimal (nibblesOf bs)) else none := by
  unfold packedOf
  by_cases h : ∀ d ∈ nibblesOf bs, d ≤ 9
  · rw [if_pos h, if_pos (by simpa using h)]
  · rw [if_neg h, if_neg (by simpa using h)]

/-! ### Layouts -/

/-- A subtotal entry takes 35 bytes (R177). -/
theorem subtotalBytes_length (e : TerminalNo × Totals) : (subtotalBytes e).length = 35 := by
  simp [subtotalBytes, sumBytes, countBytes, one]

/-- A route's block of the status reply takes 20 bytes (R178). -/
theorem routeStatusBytes_length (r : Option RouteStatus) : (routeStatusBytes r).length = 20 := by
  cases r with
  | none => rfl
  | some r => simp [routeStatusBytes, mark]

/-- The two ways of a yes-or-no item (R174). -/
theorem mark_eq (b : Bool) : mark b = [if b = true then 1#8 else 0#8] := rfl

end Sys2Proof.Machine
end

