-- ==== Sys2Proof/Laws/PerInstr.lean ====
section
/-! SUPPORT. Statements made per command: the frame that carries a command spells that command (R154, R174). -/

namespace Sys2Proof.Laws.Frames

/-- The frame that carries a well-formed command spells it; an event that no frame carries has nothing to say. -/
def Statement (i : Instr) : Prop :=
  ∀ l body, i.wf = true → i.frame = some (l, body) → decodeBody l body = some i

theorem auth (l : LinkId) (corr : Byte) (p : List Byte) : Statement (.auth l corr p) := by
  intro l' body _ hf
  cases hf
  rfl

theorem refund (l : LinkId) (corr : Byte) (p : List Byte) : Statement (.refund l corr p) := by
  intro l' body _ hf
  cases hf
  rfl

theorem reversal (l : LinkId) (corr : Byte) (p : List Byte) : Statement (.reversal l corr p) := by
  intro l' body _ hf
  cases hf
  rfl

theorem laneStatus (l : LinkId) (corr : Byte) (p : List Byte) : Statement (.laneStatus l corr p) := by
  intro l' body _ hf
  cases hf
  rfl

theorem linkReset (l : LinkId) (corr : Byte) (p : List Byte) : Statement (.linkReset l corr p) := by
  intro l' body _ hf
  cases hf
  rfl

theorem frameBad (l : LinkId) (chars : List LineChar) : Statement (.frameBad l chars) := by
  intro l' body _ hf
  cases hf

theorem lineBreak (l : LinkId) : Statement (.lineBreak l) := by
  intro l' body _ hf
  cases hf

theorem lineBreakEnd (l : LinkId) : Statement (.lineBreakEnd l) := by
  intro l' body _ hf
  cases hf

theorem grant : Statement .grant := by
  intro l' body _ hf
  cases hf

theorem completion : Statement .completion := by
  intro l' body _ hf
  cases hf

theorem enrol (l : LinkId) (corr : Byte) (p : List Byte) : Statement (.enrol l corr p) := by
  intro l' body _ hf
  cases hf
  rfl

theorem holdTerminal (l : LinkId) (corr : Byte) (p : List Byte) : Statement (.holdTerminal l corr p) := by
  intro l' body _ hf
  cases hf
  rfl

theorem releaseTerminal (l : LinkId) (corr : Byte) (p : List Byte) : Statement (.releaseTerminal l corr p) := by
  intro l' body _ hf
  cases hf
  rfl

theorem move (l : LinkId) (corr : Byte) (p : List Byte) : Statement (.move l corr p) := by
  intro l' body _ hf
  cases hf
  rfl

theorem retire (l : LinkId) (corr : Byte) (p : List Byte) : Statement (.retire l corr p) := by
  intro l' body _ hf
  cases hf
  rfl

theorem setFloor (l : LinkId) (corr : Byte) (p : List Byte) : Statement (.setFloor l corr p) := by
  intro l' body _ hf
  cases hf
  rfl

theorem terminalQuery (l : LinkId) (corr : Byte) (p : List Byte) : Statement (.terminalQuery l corr p) := by
  intro l' body _ hf
  cases hf
  rfl

theorem keyLoad (l : LinkId) (corr : Byte) (p : List Byte) : Statement (.keyLoad l corr p) := by
  intro l' body _ hf
  cases hf
  rfl

theorem loadCompletion (f : FamilyNo) : Statement (.loadCompletion f) := by
  intro l' body _ hf
  cases hf

theorem rollFamily (l : LinkId) (corr : Byte) (p : List Byte) : Statement (.rollFamily l corr p) := by
  intro l' body _ hf
  cases hf
  rfl

theorem rollCompletion (f : FamilyNo) : Statement (.rollCompletion f) := by
  intro l' body _ hf
  cases hf

theorem retireFamily (l : LinkId) (corr : Byte) (p : List Byte) : Statement (.retireFamily l corr p) := by
  intro l' body _ hf
  cases hf
  rfl

theorem familyQuery (l : LinkId) (corr : Byte) (p : List Byte) : Statement (.familyQuery l corr p) := by
  intro l' body _ hf
  cases hf
  rfl

theorem setCeiling (l : LinkId) (corr : Byte) (p : List Byte) : Statement (.setCeiling l corr p) := by
  intro l' body _ hf
  cases hf
  rfl

theorem holdLane (l : LinkId) (corr : Byte) (p : List Byte) : Statement (.holdLane l corr p) := by
  intro l' body _ hf
  cases hf
  rfl

theorem releaseLane (l : LinkId) (corr : Byte) (p : List Byte) : Statement (.releaseLane l corr p) := by
  intro l' body _ hf
  cases hf
  rfl

theorem routeUp (l : LinkId) (corr : Byte) (p : List Byte) : Statement (.routeUp l corr p) := by
  intro l' body _ hf
  cases hf
  rfl

theorem routeDown (l : LinkId) (corr : Byte) (p : List Byte) : Statement (.routeDown l corr p) := by
  intro l' body _ hf
  cases hf
  rfl

theorem pullOne (l : LinkId) (corr : Byte) (p : List Byte) : Statement (.pullOne l corr p) := by
  intro l' body _ hf
  cases hf
  rfl

theorem pullBlock (l : LinkId) (corr : Byte) (p : List Byte) : Statement (.pullBlock l corr p) := by
  intro l' body _ hf
  cases hf
  rfl

theorem streamOpen (l : LinkId) (corr : Byte) (p : List Byte) : Statement (.streamOpen l corr p) := by
  intro l' body _ hf
  cases hf
  rfl

theorem streamClose (l : LinkId) (corr : Byte) (p : List Byte) : Statement (.streamClose l corr p) := by
  intro l' body _ hf
  cases hf
  rfl

theorem streamOffer (l : LinkId) : Statement (.streamOffer l) := by
  intro l' body _ hf
  cases hf

theorem transmitComplete (l : LinkId) : Statement (.transmitComplete l) := by
  intro l' body _ hf
  cases hf

theorem ackOne (l : LinkId) (corr : Byte) (p : List Byte) : Statement (.ackOne l corr p) := by
  intro l' body _ hf
  cases hf
  rfl

theorem ackOldest (l : LinkId) (corr : Byte) (p : List Byte) : Statement (.ackOldest l corr p) := by
  intro l' body _ hf
  cases hf
  rfl

theorem ackThrough (l : LinkId) (corr : Byte) (p : List Byte) : Statement (.ackThrough l corr p) := by
  intro l' body _ hf
  cases hf
  rfl

theorem ackTimerExpiry (r : RouteNo) : Statement (.ackTimerExpiry r) := by
  intro l' body _ hf
  cases hf

theorem tick : Statement .tick := by
  intro l' body _ hf
  cases hf

theorem nearWarning : Statement .nearWarning := by
  intro l' body _ hf
  cases hf

theorem cutoverMatch : Statement .cutoverMatch := by
  intro l' body _ hf
  cases hf

theorem cutoverClosingStart : Statement .cutoverClosingStart := by
  intro l' body _ hf
  cases hf

theorem cutoverRouteClose : Statement .cutoverRouteClose := by
  intro l' body _ hf
  cases hf

theorem cutoverFamilyRoll : Statement .cutoverFamilyRoll := by
  intro l' body _ hf
  cases hf

theorem setClock (l : LinkId) (corr : Byte) (p : List Byte) : Statement (.setClock l corr p) := by
  intro l' body _ hf
  cases hf
  rfl

theorem setCutover (l : LinkId) (corr : Byte) (p : List Byte) : Statement (.setCutover l corr p) := by
  intro l' body _ hf
  cases hf
  rfl

theorem closeBatch (l : LinkId) (corr : Byte) (p : List Byte) : Statement (.closeBatch l corr p) := by
  intro l' body _ hf
  cases hf
  rfl

theorem deferredClose (r : RouteNo) : Statement (.deferredClose r) := by
  intro l' body _ hf
  cases hf

theorem setupBegin (l : LinkId) (corr : Byte) (p : List Byte) : Statement (.setupBegin l corr p) := by
  intro l' body _ hf
  cases hf
  rfl

theorem routeDefine (l : LinkId) (corr : Byte) (p : List Byte) : Statement (.routeDefine l corr p) := by
  intro l' body _ hf
  cases hf
  rfl

theorem setupEnd (l : LinkId) (corr : Byte) (p : List Byte) : Statement (.setupEnd l corr p) := by
  intro l' body _ hf
  cases hf
  rfl

theorem statusRead (l : LinkId) (corr : Byte) (p : List Byte) : Statement (.statusRead l corr p) := by
  intro l' body _ hf
  cases hf
  rfl

theorem faultRead (l : LinkId) (corr : Byte) (p : List Byte) : Statement (.faultRead l corr p) := by
  intro l' body _ hf
  cases hf
  rfl

theorem routeQuery (l : LinkId) (corr : Byte) (p : List Byte) : Statement (.routeQuery l corr p) := by
  intro l' body _ hf
  cases hf
  rfl

theorem erase (l : LinkId) (corr : Byte) (p : List Byte) : Statement (.erase l corr p) := by
  intro l' body _ hf
  cases hf
  rfl

theorem warmRestore (straps : BitVec 6) : Statement (.warmRestore straps) := by
  intro l' body _ hf
  cases hf

theorem storeLost (straps : BitVec 6) : Statement (.storeLost straps) := by
  intro l' body _ hf
  cases hf

theorem resetLine : Statement .resetLine := by
  intro l' body _ hf
  cases hf

theorem powerLoss : Statement .powerLoss := by
  intro l' body _ hf
  cases hf

theorem retentionLoss : Statement .retentionLoss := by
  intro l' body _ hf
  cases hf

theorem unknownKind (l : LinkId) (corr : Byte) (kind : Byte) (p : List Byte) : Statement (.unknownKind l corr kind p) := by
  intro l' body hw hf
  cases hf
  have hk : kind ∉ requestKinds := by
    intro h
    simp [Instr.wf, Instr.ownRow, h] at hw
  have hn : commandOf kind = none := by
    unfold commandOf
    rw [Option.map_eq_none_iff, List.find?_eq_none]
    intro e he hek
    exact hk (List.mem_map.mpr ⟨e, he, beq_iff_eq.mp hek⟩)
  simp only [decodeBody, hn]

end Sys2Proof.Laws.Frames
end

