-- ==== Sys2Proof/Laws/Vec.lean ====
section
/-! SUPPORT. The laws of fixed-size tables. -/

namespace Sys2Proof

@[simp] theorem Vec.get_put_same {α : Type} {n : Nat} (v : Vector α n) (i : Fin n) (a : α) :
    Vec.get (Vec.put v i a) i = a := by
  simp [Vec.get, Vec.put]

theorem Vec.get_put {α : Type} {n : Nat} (v : Vector α n) (i j : Fin n) (a : α) :
    Vec.get (Vec.put v i a) j = if i = j then a else Vec.get v j := by
  simp [Vec.get, Vec.put, Vector.getElem_set, Fin.ext_iff]

@[simp] theorem Vec.get_put_ne {α : Type} {n : Nat} (v : Vector α n) {i j : Fin n} (a : α) (h : i ≠ j) :
    Vec.get (Vec.put v i a) j = Vec.get v j := by
  rw [Vec.get_put, if_neg h]

@[simp] theorem Vec.get_gen {α : Type} {n : Nat} (f : Fin n → α) (i : Fin n) : Vec.get (Vec.gen f) i = f i := by
  unfold Vec.gen
  simp [Vec.get]

@[simp] theorem Vec.get_replicate {α : Type} {n : Nat} (a : α) (i : Fin n) :
    Vec.get (Vector.replicate n a) i = a := by
  simp [Vec.get]

/-- Two tables with the same entries are equal. -/
theorem Vec.eq_of_get {α : Type} {n : Nat} {v w : Vector α n} (h : ∀ i, Vec.get v i = Vec.get w i) : v = w := by
  apply Vector.ext
  intro i hi
  exact h ⟨i, hi⟩

/-- Writing back what stands there changes nothing. -/
@[simp] theorem Vec.put_get {α : Type} {n : Nat} (v : Vector α n) (i : Fin n) : Vec.put v i (Vec.get v i) = v := by
  apply Vec.eq_of_get
  intro j
  rw [Vec.get_put]
  split
  · next h => rw [h]
  · rfl

/-- Of two writes of one entry the later stands. -/
@[simp] theorem Vec.put_put {α : Type} {n : Nat} (v : Vector α n) (i : Fin n) (a b : α) :
    Vec.put (Vec.put v i a) i b = Vec.put v i b := by
  apply Vec.eq_of_get
  intro j
  simp only [Vec.get_put]
  split <;> rfl

end Sys2Proof
end

