-- ==== Sys2Proof/Laws/State.lean ====
section
/-! SUPPORT. One lemma per field per update: what each named update leaves unchanged and what it writes. -/

namespace Sys2Proof.Machine

/-! ### setLink -/

@[simp] theorem State.setLink_pending (s : State) (l : LinkId) (k : Link) : (s.setLink l k).pending = s.pending := rfl
@[simp] theorem State.setLink_supply (s : State) (l : LinkId) (k : Link) : (s.setLink l k).supply = s.supply := rfl
@[simp] theorem State.setLink_valid (s : State) (l : LinkId) (k : Link) : (s.setLink l k).valid = s.valid := rfl
@[simp] theorem State.setLink_status (s : State) (l : LinkId) (k : Link) : (s.setLink l k).status = s.status := rfl
@[simp] theorem State.setLink_links (s : State) (l : LinkId) (k : Link) : (s.setLink l k).links = Vec.put s.links (linkIndex l) k := rfl
@[simp] theorem State.setLink_intake (s : State) (l : LinkId) (k : Link) : (s.setLink l k).intake = s.intake := rfl
@[simp] theorem State.setLink_engine (s : State) (l : LinkId) (k : Link) : (s.setLink l k).engine = s.engine := rfl
@[simp] theorem State.setLink_terminals (s : State) (l : LinkId) (k : Link) : (s.setLink l k).terminals = s.terminals := rfl
@[simp] theorem State.setLink_keys (s : State) (l : LinkId) (k : Link) : (s.setLink l k).keys = s.keys := rfl
@[simp] theorem State.setLink_accounts (s : State) (l : LinkId) (k : Link) : (s.setLink l k).accounts = s.accounts := rfl
@[simp] theorem State.setLink_qm (s : State) (l : LinkId) (k : Link) : (s.setLink l k).qm = s.qm := rfl
@[simp] theorem State.setLink_dispatch (s : State) (l : LinkId) (k : Link) : (s.setLink l k).dispatch = s.dispatch := rfl
@[simp] theorem State.setLink_cutover (s : State) (l : LinkId) (k : Link) : (s.setLink l k).cutover = s.cutover := rfl

/-! ### setLane -/

@[simp] theorem State.setLane_pending (s : State) (i : LaneNo) (k : Lane) : (s.setLane i k).pending = s.pending := rfl
@[simp] theorem State.setLane_supply (s : State) (i : LaneNo) (k : Lane) : (s.setLane i k).supply = s.supply := rfl
@[simp] theorem State.setLane_valid (s : State) (i : LaneNo) (k : Lane) : (s.setLane i k).valid = s.valid := rfl
@[simp] theorem State.setLane_status (s : State) (i : LaneNo) (k : Lane) : (s.setLane i k).status = s.status := rfl
@[simp] theorem State.setLane_links (s : State) (i : LaneNo) (k : Lane) : (s.setLane i k).links = s.links := rfl
@[simp] theorem State.setLane_intake (s : State) (i : LaneNo) (k : Lane) : (s.setLane i k).intake = { s.intake with lanes := Vec.put s.intake.lanes i k } := rfl
@[simp] theorem State.setLane_engine (s : State) (i : LaneNo) (k : Lane) : (s.setLane i k).engine = s.engine := rfl
@[simp] theorem State.setLane_terminals (s : State) (i : LaneNo) (k : Lane) : (s.setLane i k).terminals = s.terminals := rfl
@[simp] theorem State.setLane_keys (s : State) (i : LaneNo) (k : Lane) : (s.setLane i k).keys = s.keys := rfl
@[simp] theorem State.setLane_accounts (s : State) (i : LaneNo) (k : Lane) : (s.setLane i k).accounts = s.accounts := rfl
@[simp] theorem State.setLane_qm (s : State) (i : LaneNo) (k : Lane) : (s.setLane i k).qm = s.qm := rfl
@[simp] theorem State.setLane_dispatch (s : State) (i : LaneNo) (k : Lane) : (s.setLane i k).dispatch = s.dispatch := rfl
@[simp] theorem State.setLane_cutover (s : State) (i : LaneNo) (k : Lane) : (s.setLane i k).cutover = s.cutover := rfl

/-! ### setTerm -/

@[simp] theorem State.setTerm_pending (s : State) (t : TerminalNo) (e : Terminal) : (s.setTerm t e).pending = s.pending := rfl
@[simp] theorem State.setTerm_supply (s : State) (t : TerminalNo) (e : Terminal) : (s.setTerm t e).supply = s.supply := rfl
@[simp] theorem State.setTerm_valid (s : State) (t : TerminalNo) (e : Terminal) : (s.setTerm t e).valid = s.valid := rfl
@[simp] theorem State.setTerm_status (s : State) (t : TerminalNo) (e : Terminal) : (s.setTerm t e).status = s.status := rfl
@[simp] theorem State.setTerm_links (s : State) (t : TerminalNo) (e : Terminal) : (s.setTerm t e).links = s.links := rfl
@[simp] theorem State.setTerm_intake (s : State) (t : TerminalNo) (e : Terminal) : (s.setTerm t e).intake = s.intake := rfl
@[simp] theorem State.setTerm_engine (s : State) (t : TerminalNo) (e : Terminal) : (s.setTerm t e).engine = s.engine := rfl
@[simp] theorem State.setTerm_terminals (s : State) (t : TerminalNo) (e : Terminal) : (s.setTerm t e).terminals = Vec.put s.terminals t e := rfl
@[simp] theorem State.setTerm_keys (s : State) (t : TerminalNo) (e : Terminal) : (s.setTerm t e).keys = s.keys := rfl
@[simp] theorem State.setTerm_accounts (s : State) (t : TerminalNo) (e : Terminal) : (s.setTerm t e).accounts = s.accounts := rfl
@[simp] theorem State.setTerm_qm (s : State) (t : TerminalNo) (e : Terminal) : (s.setTerm t e).qm = s.qm := rfl
@[simp] theorem State.setTerm_dispatch (s : State) (t : TerminalNo) (e : Terminal) : (s.setTerm t e).dispatch = s.dispatch := rfl
@[simp] theorem State.setTerm_cutover (s : State) (t : TerminalNo) (e : Terminal) : (s.setTerm t e).cutover = s.cutover := rfl

/-! ### setFamily -/

@[simp] theorem State.setFamily_pending (s : State) (f : FamilyNo) (k : Family) : (s.setFamily f k).pending = s.pending := rfl
@[simp] theorem State.setFamily_supply (s : State) (f : FamilyNo) (k : Family) : (s.setFamily f k).supply = s.supply := rfl
@[simp] theorem State.setFamily_valid (s : State) (f : FamilyNo) (k : Family) : (s.setFamily f k).valid = s.valid := rfl
@[simp] theorem State.setFamily_status (s : State) (f : FamilyNo) (k : Family) : (s.setFamily f k).status = s.status := rfl
@[simp] theorem State.setFamily_links (s : State) (f : FamilyNo) (k : Family) : (s.setFamily f k).links = s.links := rfl
@[simp] theorem State.setFamily_intake (s : State) (f : FamilyNo) (k : Family) : (s.setFamily f k).intake = s.intake := rfl
@[simp] theorem State.setFamily_engine (s : State) (f : FamilyNo) (k : Family) : (s.setFamily f k).engine = s.engine := rfl
@[simp] theorem State.setFamily_terminals (s : State) (f : FamilyNo) (k : Family) : (s.setFamily f k).terminals = s.terminals := rfl
@[simp] theorem State.setFamily_keys (s : State) (f : FamilyNo) (k : Family) : (s.setFamily f k).keys = { s.keys with families := Vec.put s.keys.families f k } := rfl
@[simp] theorem State.setFamily_accounts (s : State) (f : FamilyNo) (k : Family) : (s.setFamily f k).accounts = s.accounts := rfl
@[simp] theorem State.setFamily_qm (s : State) (f : FamilyNo) (k : Family) : (s.setFamily f k).qm = s.qm := rfl
@[simp] theorem State.setFamily_dispatch (s : State) (f : FamilyNo) (k : Family) : (s.setFamily f k).dispatch = s.dispatch := rfl
@[simp] theorem State.setFamily_cutover (s : State) (f : FamilyNo) (k : Family) : (s.setFamily f k).cutover = s.cutover := rfl

/-! ### setLoad -/

@[simp] theorem State.setLoad_pending (s : State) (f : FamilyNo) (w : Option LoadWork) : (s.setLoad f w).pending = s.pending := rfl
@[simp] theorem State.setLoad_supply (s : State) (f : FamilyNo) (w : Option LoadWork) : (s.setLoad f w).supply = s.supply := rfl
@[simp] theorem State.setLoad_valid (s : State) (f : FamilyNo) (w : Option LoadWork) : (s.setLoad f w).valid = s.valid := rfl
@[simp] theorem State.setLoad_status (s : State) (f : FamilyNo) (w : Option LoadWork) : (s.setLoad f w).status = s.status := rfl
@[simp] theorem State.setLoad_links (s : State) (f : FamilyNo) (w : Option LoadWork) : (s.setLoad f w).links = s.links := rfl
@[simp] theorem State.setLoad_intake (s : State) (f : FamilyNo) (w : Option LoadWork) : (s.setLoad f w).intake = s.intake := rfl
@[simp] theorem State.setLoad_engine (s : State) (f : FamilyNo) (w : Option LoadWork) : (s.setLoad f w).engine = s.engine := rfl
@[simp] theorem State.setLoad_terminals (s : State) (f : FamilyNo) (w : Option LoadWork) : (s.setLoad f w).terminals = s.terminals := rfl
@[simp] theorem State.setLoad_keys (s : State) (f : FamilyNo) (w : Option LoadWork) : (s.setLoad f w).keys = { s.keys with loads := Vec.put s.keys.loads f w } := rfl
@[simp] theorem State.setLoad_accounts (s : State) (f : FamilyNo) (w : Option LoadWork) : (s.setLoad f w).accounts = s.accounts := rfl
@[simp] theorem State.setLoad_qm (s : State) (f : FamilyNo) (w : Option LoadWork) : (s.setLoad f w).qm = s.qm := rfl
@[simp] theorem State.setLoad_dispatch (s : State) (f : FamilyNo) (w : Option LoadWork) : (s.setLoad f w).dispatch = s.dispatch := rfl
@[simp] theorem State.setLoad_cutover (s : State) (f : FamilyNo) (w : Option LoadWork) : (s.setLoad f w).cutover = s.cutover := rfl

/-! ### setAccount -/

@[simp] theorem State.setAccount_pending (s : State) (r : RouteNo) (a : RouteAccount) : (s.setAccount r a).pending = s.pending := rfl
@[simp] theorem State.setAccount_supply (s : State) (r : RouteNo) (a : RouteAccount) : (s.setAccount r a).supply = s.supply := rfl
@[simp] theorem State.setAccount_valid (s : State) (r : RouteNo) (a : RouteAccount) : (s.setAccount r a).valid = s.valid := rfl
@[simp] theorem State.setAccount_status (s : State) (r : RouteNo) (a : RouteAccount) : (s.setAccount r a).status = s.status := rfl
@[simp] theorem State.setAccount_links (s : State) (r : RouteNo) (a : RouteAccount) : (s.setAccount r a).links = s.links := rfl
@[simp] theorem State.setAccount_intake (s : State) (r : RouteNo) (a : RouteAccount) : (s.setAccount r a).intake = s.intake := rfl
@[simp] theorem State.setAccount_engine (s : State) (r : RouteNo) (a : RouteAccount) : (s.setAccount r a).engine = s.engine := rfl
@[simp] theorem State.setAccount_terminals (s : State) (r : RouteNo) (a : RouteAccount) : (s.setAccount r a).terminals = s.terminals := rfl
@[simp] theorem State.setAccount_keys (s : State) (r : RouteNo) (a : RouteAccount) : (s.setAccount r a).keys = s.keys := rfl
@[simp] theorem State.setAccount_accounts (s : State) (r : RouteNo) (a : RouteAccount) : (s.setAccount r a).accounts = Vec.put s.accounts r a := rfl
@[simp] theorem State.setAccount_qm (s : State) (r : RouteNo) (a : RouteAccount) : (s.setAccount r a).qm = s.qm := rfl
@[simp] theorem State.setAccount_dispatch (s : State) (r : RouteNo) (a : RouteAccount) : (s.setAccount r a).dispatch = s.dispatch := rfl
@[simp] theorem State.setAccount_cutover (s : State) (r : RouteNo) (a : RouteAccount) : (s.setAccount r a).cutover = s.cutover := rfl

/-! ### setQueue -/

@[simp] theorem State.setQueue_pending (s : State) (r : RouteNo) (q : RouteQueue) : (s.setQueue r q).pending = s.pending := rfl
@[simp] theorem State.setQueue_supply (s : State) (r : RouteNo) (q : RouteQueue) : (s.setQueue r q).supply = s.supply := rfl
@[simp] theorem State.setQueue_valid (s : State) (r : RouteNo) (q : RouteQueue) : (s.setQueue r q).valid = s.valid := rfl
@[simp] theorem State.setQueue_status (s : State) (r : RouteNo) (q : RouteQueue) : (s.setQueue r q).status = s.status := rfl
@[simp] theorem State.setQueue_links (s : State) (r : RouteNo) (q : RouteQueue) : (s.setQueue r q).links = s.links := rfl
@[simp] theorem State.setQueue_intake (s : State) (r : RouteNo) (q : RouteQueue) : (s.setQueue r q).intake = s.intake := rfl
@[simp] theorem State.setQueue_engine (s : State) (r : RouteNo) (q : RouteQueue) : (s.setQueue r q).engine = s.engine := rfl
@[simp] theorem State.setQueue_terminals (s : State) (r : RouteNo) (q : RouteQueue) : (s.setQueue r q).terminals = s.terminals := rfl
@[simp] theorem State.setQueue_keys (s : State) (r : RouteNo) (q : RouteQueue) : (s.setQueue r q).keys = s.keys := rfl
@[simp] theorem State.setQueue_accounts (s : State) (r : RouteNo) (q : RouteQueue) : (s.setQueue r q).accounts = s.accounts := rfl
@[simp] theorem State.setQueue_qm (s : State) (r : RouteNo) (q : RouteQueue) : (s.setQueue r q).qm = { s.qm with queues := Vec.put s.qm.queues r q } := rfl
@[simp] theorem State.setQueue_dispatch (s : State) (r : RouteNo) (q : RouteQueue) : (s.setQueue r q).dispatch = s.dispatch := rfl
@[simp] theorem State.setQueue_cutover (s : State) (r : RouteNo) (q : RouteQueue) : (s.setQueue r q).cutover = s.cutover := rfl

/-! ### setRoute -/

@[simp] theorem State.setRoute_pending (s : State) (r : RouteNo) (d : RouteDispatch) : (s.setRoute r d).pending = s.pending := rfl
@[simp] theorem State.setRoute_supply (s : State) (r : RouteNo) (d : RouteDispatch) : (s.setRoute r d).supply = s.supply := rfl
@[simp] theorem State.setRoute_valid (s : State) (r : RouteNo) (d : RouteDispatch) : (s.setRoute r d).valid = s.valid := rfl
@[simp] theorem State.setRoute_status (s : State) (r : RouteNo) (d : RouteDispatch) : (s.setRoute r d).status = s.status := rfl
@[simp] theorem State.setRoute_links (s : State) (r : RouteNo) (d : RouteDispatch) : (s.setRoute r d).links = s.links := rfl
@[simp] theorem State.setRoute_intake (s : State) (r : RouteNo) (d : RouteDispatch) : (s.setRoute r d).intake = s.intake := rfl
@[simp] theorem State.setRoute_engine (s : State) (r : RouteNo) (d : RouteDispatch) : (s.setRoute r d).engine = s.engine := rfl
@[simp] theorem State.setRoute_terminals (s : State) (r : RouteNo) (d : RouteDispatch) : (s.setRoute r d).terminals = s.terminals := rfl
@[simp] theorem State.setRoute_keys (s : State) (r : RouteNo) (d : RouteDispatch) : (s.setRoute r d).keys = s.keys := rfl
@[simp] theorem State.setRoute_accounts (s : State) (r : RouteNo) (d : RouteDispatch) : (s.setRoute r d).accounts = s.accounts := rfl
@[simp] theorem State.setRoute_qm (s : State) (r : RouteNo) (d : RouteDispatch) : (s.setRoute r d).qm = s.qm := rfl
@[simp] theorem State.setRoute_dispatch (s : State) (r : RouteNo) (d : RouteDispatch) : (s.setRoute r d).dispatch = Vec.put s.dispatch r d := rfl
@[simp] theorem State.setRoute_cutover (s : State) (r : RouteNo) (d : RouteDispatch) : (s.setRoute r d).cutover = s.cutover := rfl

/-! ### raise -/

@[simp] theorem State.raise_pending (s : State) (f : EventFlag) : (s.raise f).pending = s.pending := rfl
@[simp] theorem State.raise_supply (s : State) (f : EventFlag) : (s.raise f).supply = s.supply := rfl
@[simp] theorem State.raise_valid (s : State) (f : EventFlag) : (s.raise f).valid = s.valid := rfl
@[simp] theorem State.raise_status (s : State) (f : EventFlag) : (s.raise f).status = s.status.raise f := rfl
@[simp] theorem State.raise_links (s : State) (f : EventFlag) : (s.raise f).links = s.links := rfl
@[simp] theorem State.raise_intake (s : State) (f : EventFlag) : (s.raise f).intake = s.intake := rfl
@[simp] theorem State.raise_engine (s : State) (f : EventFlag) : (s.raise f).engine = s.engine := rfl
@[simp] theorem State.raise_terminals (s : State) (f : EventFlag) : (s.raise f).terminals = s.terminals := rfl
@[simp] theorem State.raise_keys (s : State) (f : EventFlag) : (s.raise f).keys = s.keys := rfl
@[simp] theorem State.raise_accounts (s : State) (f : EventFlag) : (s.raise f).accounts = s.accounts := rfl
@[simp] theorem State.raise_qm (s : State) (f : EventFlag) : (s.raise f).qm = s.qm := rfl
@[simp] theorem State.raise_dispatch (s : State) (f : EventFlag) : (s.raise f).dispatch = s.dispatch := rfl
@[simp] theorem State.raise_cutover (s : State) (f : EventFlag) : (s.raise f).cutover = s.cutover := rfl

/-! ### raiseIf -/

@[simp] theorem State.raiseIf_pending (s : State) (c : Bool) (f : EventFlag) : (s.raiseIf c f).pending = s.pending := rfl
@[simp] theorem State.raiseIf_supply (s : State) (c : Bool) (f : EventFlag) : (s.raiseIf c f).supply = s.supply := rfl
@[simp] theorem State.raiseIf_valid (s : State) (c : Bool) (f : EventFlag) : (s.raiseIf c f).valid = s.valid := rfl
@[simp] theorem State.raiseIf_status (s : State) (c : Bool) (f : EventFlag) : (s.raiseIf c f).status = s.status.raiseIf c f := rfl
@[simp] theorem State.raiseIf_links (s : State) (c : Bool) (f : EventFlag) : (s.raiseIf c f).links = s.links := rfl
@[simp] theorem State.raiseIf_intake (s : State) (c : Bool) (f : EventFlag) : (s.raiseIf c f).intake = s.intake := rfl
@[simp] theorem State.raiseIf_engine (s : State) (c : Bool) (f : EventFlag) : (s.raiseIf c f).engine = s.engine := rfl
@[simp] theorem State.raiseIf_terminals (s : State) (c : Bool) (f : EventFlag) : (s.raiseIf c f).terminals = s.terminals := rfl
@[simp] theorem State.raiseIf_keys (s : State) (c : Bool) (f : EventFlag) : (s.raiseIf c f).keys = s.keys := rfl
@[simp] theorem State.raiseIf_accounts (s : State) (c : Bool) (f : EventFlag) : (s.raiseIf c f).accounts = s.accounts := rfl
@[simp] theorem State.raiseIf_qm (s : State) (c : Bool) (f : EventFlag) : (s.raiseIf c f).qm = s.qm := rfl
@[simp] theorem State.raiseIf_dispatch (s : State) (c : Bool) (f : EventFlag) : (s.raiseIf c f).dispatch = s.dispatch := rfl
@[simp] theorem State.raiseIf_cutover (s : State) (c : Bool) (f : EventFlag) : (s.raiseIf c f).cutover = s.cutover := rfl

/-! ### logFault -/

@[simp] theorem State.logFault_pending (s : State) (c : FaultCode) (n : Nat) : (s.logFault c n).pending = s.pending := rfl
@[simp] theorem State.logFault_supply (s : State) (c : FaultCode) (n : Nat) : (s.logFault c n).supply = s.supply := rfl
@[simp] theorem State.logFault_valid (s : State) (c : FaultCode) (n : Nat) : (s.logFault c n).valid = s.valid := rfl
@[simp] theorem State.logFault_status (s : State) (c : FaultCode) (n : Nat) : (s.logFault c n).status = s.status.logFault ⟨c, s.time, n⟩ := rfl
@[simp] theorem State.logFault_links (s : State) (c : FaultCode) (n : Nat) : (s.logFault c n).links = s.links := rfl
@[simp] theorem State.logFault_intake (s : State) (c : FaultCode) (n : Nat) : (s.logFault c n).intake = s.intake := rfl
@[simp] theorem State.logFault_engine (s : State) (c : FaultCode) (n : Nat) : (s.logFault c n).engine = s.engine := rfl
@[simp] theorem State.logFault_terminals (s : State) (c : FaultCode) (n : Nat) : (s.logFault c n).terminals = s.terminals := rfl
@[simp] theorem State.logFault_keys (s : State) (c : FaultCode) (n : Nat) : (s.logFault c n).keys = s.keys := rfl
@[simp] theorem State.logFault_accounts (s : State) (c : FaultCode) (n : Nat) : (s.logFault c n).accounts = s.accounts := rfl
@[simp] theorem State.logFault_qm (s : State) (c : FaultCode) (n : Nat) : (s.logFault c n).qm = s.qm := rfl
@[simp] theorem State.logFault_dispatch (s : State) (c : FaultCode) (n : Nat) : (s.logFault c n).dispatch = s.dispatch := rfl
@[simp] theorem State.logFault_cutover (s : State) (c : FaultCode) (n : Nat) : (s.logFault c n).cutover = s.cutover := rfl

/-! ### enqueue -/

@[simp] theorem State.enqueue_pending (s : State) (l : LinkId) (e : QueueEntry) : (s.enqueue l e).pending = s.pending := rfl
@[simp] theorem State.enqueue_supply (s : State) (l : LinkId) (e : QueueEntry) : (s.enqueue l e).supply = s.supply := rfl
@[simp] theorem State.enqueue_valid (s : State) (l : LinkId) (e : QueueEntry) : (s.enqueue l e).valid = s.valid := rfl
@[simp] theorem State.enqueue_status (s : State) (l : LinkId) (e : QueueEntry) : (s.enqueue l e).status = s.status := rfl
@[simp] theorem State.enqueue_links (s : State) (l : LinkId) (e : QueueEntry) : (s.enqueue l e).links = Vec.put s.links (linkIndex l) ((s.link l).push e) := rfl
@[simp] theorem State.enqueue_intake (s : State) (l : LinkId) (e : QueueEntry) : (s.enqueue l e).intake = s.intake := rfl
@[simp] theorem State.enqueue_engine (s : State) (l : LinkId) (e : QueueEntry) : (s.enqueue l e).engine = s.engine := rfl
@[simp] theorem State.enqueue_terminals (s : State) (l : LinkId) (e : QueueEntry) : (s.enqueue l e).terminals = s.terminals := rfl
@[simp] theorem State.enqueue_keys (s : State) (l : LinkId) (e : QueueEntry) : (s.enqueue l e).keys = s.keys := rfl
@[simp] theorem State.enqueue_accounts (s : State) (l : LinkId) (e : QueueEntry) : (s.enqueue l e).accounts = s.accounts := rfl
@[simp] theorem State.enqueue_qm (s : State) (l : LinkId) (e : QueueEntry) : (s.enqueue l e).qm = s.qm := rfl
@[simp] theorem State.enqueue_dispatch (s : State) (l : LinkId) (e : QueueEntry) : (s.enqueue l e).dispatch = s.dispatch := rfl
@[simp] theorem State.enqueue_cutover (s : State) (l : LinkId) (e : QueueEntry) : (s.enqueue l e).cutover = s.cutover := rfl

/-! ### send -/

@[simp] theorem State.send_pending (s : State) (l : LinkId) (m : Message) : (s.send l m).pending = s.pending := rfl
@[simp] theorem State.send_supply (s : State) (l : LinkId) (m : Message) : (s.send l m).supply = s.supply := rfl
@[simp] theorem State.send_valid (s : State) (l : LinkId) (m : Message) : (s.send l m).valid = s.valid := rfl
@[simp] theorem State.send_status (s : State) (l : LinkId) (m : Message) : (s.send l m).status = s.status := rfl
@[simp] theorem State.send_links (s : State) (l : LinkId) (m : Message) : (s.send l m).links = Vec.put s.links (linkIndex l) ((s.link l).push (.run m [])) := rfl
@[simp] theorem State.send_intake (s : State) (l : LinkId) (m : Message) : (s.send l m).intake = s.intake := rfl
@[simp] theorem State.send_engine (s : State) (l : LinkId) (m : Message) : (s.send l m).engine = s.engine := rfl
@[simp] theorem State.send_terminals (s : State) (l : LinkId) (m : Message) : (s.send l m).terminals = s.terminals := rfl
@[simp] theorem State.send_keys (s : State) (l : LinkId) (m : Message) : (s.send l m).keys = s.keys := rfl
@[simp] theorem State.send_accounts (s : State) (l : LinkId) (m : Message) : (s.send l m).accounts = s.accounts := rfl
@[simp] theorem State.send_qm (s : State) (l : LinkId) (m : Message) : (s.send l m).qm = s.qm := rfl
@[simp] theorem State.send_dispatch (s : State) (l : LinkId) (m : Message) : (s.send l m).dispatch = s.dispatch := rfl
@[simp] theorem State.send_cutover (s : State) (l : LinkId) (m : Message) : (s.send l m).cutover = s.cutover := rfl

/-! ### answer -/

@[simp] theorem State.answer_pending (s : State) (l : LinkId) (corr : Byte) (code : Code) (reply : Reply) : (s.answer l corr code reply).pending = s.pending := rfl
@[simp] theorem State.answer_supply (s : State) (l : LinkId) (corr : Byte) (code : Code) (reply : Reply) : (s.answer l corr code reply).supply = s.supply := rfl
@[simp] theorem State.answer_valid (s : State) (l : LinkId) (corr : Byte) (code : Code) (reply : Reply) : (s.answer l corr code reply).valid = s.valid := rfl
@[simp] theorem State.answer_status (s : State) (l : LinkId) (corr : Byte) (code : Code) (reply : Reply) : (s.answer l corr code reply).status = s.status := rfl
@[simp] theorem State.answer_links (s : State) (l : LinkId) (corr : Byte) (code : Code) (reply : Reply) : (s.answer l corr code reply).links = Vec.put s.links (linkIndex l) ((s.link l).push (.run (.answer corr code reply) [])) := rfl
@[simp] theorem State.answer_intake (s : State) (l : LinkId) (corr : Byte) (code : Code) (reply : Reply) : (s.answer l corr code reply).intake = s.intake := rfl
@[simp] theorem State.answer_engine (s : State) (l : LinkId) (corr : Byte) (code : Code) (reply : Reply) : (s.answer l corr code reply).engine = s.engine := rfl
@[simp] theorem State.answer_terminals (s : State) (l : LinkId) (corr : Byte) (code : Code) (reply : Reply) : (s.answer l corr code reply).terminals = s.terminals := rfl
@[simp] theorem State.answer_keys (s : State) (l : LinkId) (corr : Byte) (code : Code) (reply : Reply) : (s.answer l corr code reply).keys = s.keys := rfl
@[simp] theorem State.answer_accounts (s : State) (l : LinkId) (corr : Byte) (code : Code) (reply : Reply) : (s.answer l corr code reply).accounts = s.accounts := rfl
@[simp] theorem State.answer_qm (s : State) (l : LinkId) (corr : Byte) (code : Code) (reply : Reply) : (s.answer l corr code reply).qm = s.qm := rfl
@[simp] theorem State.answer_dispatch (s : State) (l : LinkId) (corr : Byte) (code : Code) (reply : Reply) : (s.answer l corr code reply).dispatch = s.dispatch := rfl
@[simp] theorem State.answer_cutover (s : State) (l : LinkId) (corr : Byte) (code : Code) (reply : Reply) : (s.answer l corr code reply).cutover = s.cutover := rfl

/-! ### fill -/

@[simp] theorem State.fill_pending (s : State) (f : FamilyNo) (code : Code) (reply : Reply) : (s.fill f code reply).pending = s.pending := rfl
@[simp] theorem State.fill_supply (s : State) (f : FamilyNo) (code : Code) (reply : Reply) : (s.fill f code reply).supply = s.supply := rfl
@[simp] theorem State.fill_valid (s : State) (f : FamilyNo) (code : Code) (reply : Reply) : (s.fill f code reply).valid = s.valid := rfl
@[simp] theorem State.fill_status (s : State) (f : FamilyNo) (code : Code) (reply : Reply) : (s.fill f code reply).status = s.status := rfl
@[simp] theorem State.fill_intake (s : State) (f : FamilyNo) (code : Code) (reply : Reply) : (s.fill f code reply).intake = s.intake := rfl
@[simp] theorem State.fill_engine (s : State) (f : FamilyNo) (code : Code) (reply : Reply) : (s.fill f code reply).engine = s.engine := rfl
@[simp] theorem State.fill_terminals (s : State) (f : FamilyNo) (code : Code) (reply : Reply) : (s.fill f code reply).terminals = s.terminals := rfl
@[simp] theorem State.fill_keys (s : State) (f : FamilyNo) (code : Code) (reply : Reply) : (s.fill f code reply).keys = s.keys := rfl
@[simp] theorem State.fill_accounts (s : State) (f : FamilyNo) (code : Code) (reply : Reply) : (s.fill f code reply).accounts = s.accounts := rfl
@[simp] theorem State.fill_qm (s : State) (f : FamilyNo) (code : Code) (reply : Reply) : (s.fill f code reply).qm = s.qm := rfl
@[simp] theorem State.fill_dispatch (s : State) (f : FamilyNo) (code : Code) (reply : Reply) : (s.fill f code reply).dispatch = s.dispatch := rfl
@[simp] theorem State.fill_cutover (s : State) (f : FamilyNo) (code : Code) (reply : Reply) : (s.fill f code reply).cutover = s.cutover := rfl

/-! ### releaseTest -/

@[simp] theorem State.releaseTest_pending (s : State) (t : TerminalNo) : (s.releaseTest t).pending = s.pending := rfl
@[simp] theorem State.releaseTest_supply (s : State) (t : TerminalNo) : (s.releaseTest t).supply = s.supply := rfl
@[simp] theorem State.releaseTest_valid (s : State) (t : TerminalNo) : (s.releaseTest t).valid = s.valid := rfl
@[simp] theorem State.releaseTest_status (s : State) (t : TerminalNo) : (s.releaseTest t).status = s.status := rfl
@[simp] theorem State.releaseTest_links (s : State) (t : TerminalNo) : (s.releaseTest t).links = s.links := rfl
@[simp] theorem State.releaseTest_intake (s : State) (t : TerminalNo) : (s.releaseTest t).intake = s.intake := rfl
@[simp] theorem State.releaseTest_engine (s : State) (t : TerminalNo) : (s.releaseTest t).engine = s.engine := rfl
@[simp] theorem State.releaseTest_terminals (s : State) (t : TerminalNo) : (s.releaseTest t).terminals = Vec.put s.terminals t (release s.engine t (s.term t)) := rfl
@[simp] theorem State.releaseTest_keys (s : State) (t : TerminalNo) : (s.releaseTest t).keys = s.keys := rfl
@[simp] theorem State.releaseTest_accounts (s : State) (t : TerminalNo) : (s.releaseTest t).accounts = s.accounts := rfl
@[simp] theorem State.releaseTest_qm (s : State) (t : TerminalNo) : (s.releaseTest t).qm = s.qm := rfl
@[simp] theorem State.releaseTest_dispatch (s : State) (t : TerminalNo) : (s.releaseTest t).dispatch = s.dispatch := rfl
@[simp] theorem State.releaseTest_cutover (s : State) (t : TerminalNo) : (s.releaseTest t).cutover = s.cutover := rfl

/-! ### releaseAll -/

@[simp] theorem State.releaseAll_pending (s : State) : (s.releaseAll).pending = s.pending := rfl
@[simp] theorem State.releaseAll_supply (s : State) : (s.releaseAll).supply = s.supply := rfl
@[simp] theorem State.releaseAll_valid (s : State) : (s.releaseAll).valid = s.valid := rfl
@[simp] theorem State.releaseAll_status (s : State) : (s.releaseAll).status = s.status := rfl
@[simp] theorem State.releaseAll_links (s : State) : (s.releaseAll).links = s.links := rfl
@[simp] theorem State.releaseAll_intake (s : State) : (s.releaseAll).intake = s.intake := rfl
@[simp] theorem State.releaseAll_engine (s : State) : (s.releaseAll).engine = s.engine := rfl
@[simp] theorem State.releaseAll_keys (s : State) : (s.releaseAll).keys = s.keys := rfl
@[simp] theorem State.releaseAll_accounts (s : State) : (s.releaseAll).accounts = s.accounts := rfl
@[simp] theorem State.releaseAll_qm (s : State) : (s.releaseAll).qm = s.qm := rfl
@[simp] theorem State.releaseAll_dispatch (s : State) : (s.releaseAll).dispatch = s.dispatch := rfl
@[simp] theorem State.releaseAll_cutover (s : State) : (s.releaseAll).cutover = s.cutover := rfl

/-! ### report -/

@[simp] theorem State.report_pending (s : State) (t : TerminalNo) (id : Identity) (ev : RecordEvent) : (s.report t id ev).pending = s.pending := rfl
@[simp] theorem State.report_supply (s : State) (t : TerminalNo) (id : Identity) (ev : RecordEvent) : (s.report t id ev).supply = s.supply := rfl
@[simp] theorem State.report_valid (s : State) (t : TerminalNo) (id : Identity) (ev : RecordEvent) : (s.report t id ev).valid = s.valid := rfl
@[simp] theorem State.report_status (s : State) (t : TerminalNo) (id : Identity) (ev : RecordEvent) : (s.report t id ev).status = s.status := rfl
@[simp] theorem State.report_links (s : State) (t : TerminalNo) (id : Identity) (ev : RecordEvent) : (s.report t id ev).links = s.links := rfl
@[simp] theorem State.report_intake (s : State) (t : TerminalNo) (id : Identity) (ev : RecordEvent) : (s.report t id ev).intake = s.intake := rfl
@[simp] theorem State.report_engine (s : State) (t : TerminalNo) (id : Identity) (ev : RecordEvent) : (s.report t id ev).engine = s.engine := rfl
@[simp] theorem State.report_terminals (s : State) (t : TerminalNo) (id : Identity) (ev : RecordEvent) : (s.report t id ev).terminals = reportTo s.engine s.terminals t id ev := rfl
@[simp] theorem State.report_keys (s : State) (t : TerminalNo) (id : Identity) (ev : RecordEvent) : (s.report t id ev).keys = s.keys := rfl
@[simp] theorem State.report_accounts (s : State) (t : TerminalNo) (id : Identity) (ev : RecordEvent) : (s.report t id ev).accounts = s.accounts := rfl
@[simp] theorem State.report_qm (s : State) (t : TerminalNo) (id : Identity) (ev : RecordEvent) : (s.report t id ev).qm = s.qm := rfl
@[simp] theorem State.report_dispatch (s : State) (t : TerminalNo) (id : Identity) (ev : RecordEvent) : (s.report t id ev).dispatch = s.dispatch := rfl
@[simp] theorem State.report_cutover (s : State) (t : TerminalNo) (id : Identity) (ev : RecordEvent) : (s.report t id ev).cutover = s.cutover := rfl

/-! ### writeSlot -/

@[simp] theorem State.writeSlot_pending (s : State) (n : Nat) (rec : Record) : (s.writeSlot n rec).pending = s.pending := rfl
@[simp] theorem State.writeSlot_supply (s : State) (n : Nat) (rec : Record) : (s.writeSlot n rec).supply = s.supply := rfl
@[simp] theorem State.writeSlot_valid (s : State) (n : Nat) (rec : Record) : (s.writeSlot n rec).valid = s.valid := rfl
@[simp] theorem State.writeSlot_status (s : State) (n : Nat) (rec : Record) : (s.writeSlot n rec).status = s.status := rfl
@[simp] theorem State.writeSlot_links (s : State) (n : Nat) (rec : Record) : (s.writeSlot n rec).links = s.links := rfl
@[simp] theorem State.writeSlot_intake (s : State) (n : Nat) (rec : Record) : (s.writeSlot n rec).intake = s.intake := rfl
@[simp] theorem State.writeSlot_engine (s : State) (n : Nat) (rec : Record) : (s.writeSlot n rec).engine = s.engine := rfl
@[simp] theorem State.writeSlot_terminals (s : State) (n : Nat) (rec : Record) : (s.writeSlot n rec).terminals = s.terminals := rfl
@[simp] theorem State.writeSlot_keys (s : State) (n : Nat) (rec : Record) : (s.writeSlot n rec).keys = s.keys := rfl
@[simp] theorem State.writeSlot_accounts (s : State) (n : Nat) (rec : Record) : (s.writeSlot n rec).accounts = s.accounts := rfl
@[simp] theorem State.writeSlot_qm (s : State) (n : Nat) (rec : Record) : (s.writeSlot n rec).qm = { s.qm with slots := Store.put s.qm.slots n rec } := rfl
@[simp] theorem State.writeSlot_dispatch (s : State) (n : Nat) (rec : Record) : (s.writeSlot n rec).dispatch = s.dispatch := rfl
@[simp] theorem State.writeSlot_cutover (s : State) (n : Nat) (rec : Record) : (s.writeSlot n rec).cutover = s.cutover := rfl

/-! ### addTotals -/

@[simp] theorem State.addTotals_pending (s : State) (r : RouteNo) (t : TerminalNo) (what : Completed) (a : Nat) : (s.addTotals r t what a).pending = s.pending := rfl
@[simp] theorem State.addTotals_supply (s : State) (r : RouteNo) (t : TerminalNo) (what : Completed) (a : Nat) : (s.addTotals r t what a).supply = s.supply := rfl
@[simp] theorem State.addTotals_valid (s : State) (r : RouteNo) (t : TerminalNo) (what : Completed) (a : Nat) : (s.addTotals r t what a).valid = s.valid := rfl
@[simp] theorem State.addTotals_links (s : State) (r : RouteNo) (t : TerminalNo) (what : Completed) (a : Nat) : (s.addTotals r t what a).links = s.links := rfl
@[simp] theorem State.addTotals_intake (s : State) (r : RouteNo) (t : TerminalNo) (what : Completed) (a : Nat) : (s.addTotals r t what a).intake = s.intake := rfl
@[simp] theorem State.addTotals_engine (s : State) (r : RouteNo) (t : TerminalNo) (what : Completed) (a : Nat) : (s.addTotals r t what a).engine = s.engine := rfl
@[simp] theorem State.addTotals_keys (s : State) (r : RouteNo) (t : TerminalNo) (what : Completed) (a : Nat) : (s.addTotals r t what a).keys = s.keys := rfl
@[simp] theorem State.addTotals_qm (s : State) (r : RouteNo) (t : TerminalNo) (what : Completed) (a : Nat) : (s.addTotals r t what a).qm = s.qm := rfl
@[simp] theorem State.addTotals_dispatch (s : State) (r : RouteNo) (t : TerminalNo) (what : Completed) (a : Nat) : (s.addTotals r t what a).dispatch = s.dispatch := rfl
@[simp] theorem State.addTotals_cutover (s : State) (r : RouteNo) (t : TerminalNo) (what : Completed) (a : Nat) : (s.addTotals r t what a).cutover = s.cutover := rfl

/-! ### seek -/

@[simp] theorem State.seek_pending (s : State) (r : RouteNo) : (s.seek r).pending = s.pending := rfl
@[simp] theorem State.seek_supply (s : State) (r : RouteNo) : (s.seek r).supply = s.supply := rfl
@[simp] theorem State.seek_valid (s : State) (r : RouteNo) : (s.seek r).valid = s.valid := rfl
@[simp] theorem State.seek_status (s : State) (r : RouteNo) : (s.seek r).status = s.status := rfl
@[simp] theorem State.seek_links (s : State) (r : RouteNo) : (s.seek r).links = s.links := rfl
@[simp] theorem State.seek_intake (s : State) (r : RouteNo) : (s.seek r).intake = s.intake := rfl
@[simp] theorem State.seek_engine (s : State) (r : RouteNo) : (s.seek r).engine = s.engine := rfl
@[simp] theorem State.seek_terminals (s : State) (r : RouteNo) : (s.seek r).terminals = s.terminals := rfl
@[simp] theorem State.seek_keys (s : State) (r : RouteNo) : (s.seek r).keys = s.keys := rfl
@[simp] theorem State.seek_accounts (s : State) (r : RouteNo) : (s.seek r).accounts = s.accounts := rfl
@[simp] theorem State.seek_dispatch (s : State) (r : RouteNo) : (s.seek r).dispatch = s.dispatch := rfl
@[simp] theorem State.seek_cutover (s : State) (r : RouteNo) : (s.seek r).cutover = s.cutover := rfl

/-! ### rewind -/

@[simp] theorem State.rewind_pending (s : State) (r : RouteNo) : (s.rewind r).pending = s.pending := rfl
@[simp] theorem State.rewind_supply (s : State) (r : RouteNo) : (s.rewind r).supply = s.supply := rfl
@[simp] theorem State.rewind_valid (s : State) (r : RouteNo) : (s.rewind r).valid = s.valid := rfl
@[simp] theorem State.rewind_status (s : State) (r : RouteNo) : (s.rewind r).status = s.status := rfl
@[simp] theorem State.rewind_links (s : State) (r : RouteNo) : (s.rewind r).links = s.links := rfl
@[simp] theorem State.rewind_intake (s : State) (r : RouteNo) : (s.rewind r).intake = s.intake := rfl
@[simp] theorem State.rewind_engine (s : State) (r : RouteNo) : (s.rewind r).engine = s.engine := rfl
@[simp] theorem State.rewind_keys (s : State) (r : RouteNo) : (s.rewind r).keys = s.keys := rfl
@[simp] theorem State.rewind_accounts (s : State) (r : RouteNo) : (s.rewind r).accounts = s.accounts := rfl
@[simp] theorem State.rewind_dispatch (s : State) (r : RouteNo) : (s.rewind r).dispatch = s.dispatch := rfl
@[simp] theorem State.rewind_cutover (s : State) (r : RouteNo) : (s.rewind r).cutover = s.cutover := rfl

/-! ### performClose -/

@[simp] theorem State.performClose_pending (s : State) (r : RouteNo) (why : CloseReason) : (s.performClose r why).pending = s.pending := rfl
@[simp] theorem State.performClose_supply (s : State) (r : RouteNo) (why : CloseReason) : (s.performClose r why).supply = s.supply := rfl
@[simp] theorem State.performClose_valid (s : State) (r : RouteNo) (why : CloseReason) : (s.performClose r why).valid = s.valid := rfl
@[simp] theorem State.performClose_status (s : State) (r : RouteNo) (why : CloseReason) : (s.performClose r why).status = s.status := rfl
@[simp] theorem State.performClose_links (s : State) (r : RouteNo) (why : CloseReason) : (s.performClose r why).links = s.links := rfl
@[simp] theorem State.performClose_intake (s : State) (r : RouteNo) (why : CloseReason) : (s.performClose r why).intake = s.intake := rfl
@[simp] theorem State.performClose_engine (s : State) (r : RouteNo) (why : CloseReason) : (s.performClose r why).engine = s.engine := rfl
@[simp] theorem State.performClose_keys (s : State) (r : RouteNo) (why : CloseReason) : (s.performClose r why).keys = s.keys := rfl
@[simp] theorem State.performClose_dispatch (s : State) (r : RouteNo) (why : CloseReason) : (s.performClose r why).dispatch = s.dispatch := rfl
@[simp] theorem State.performClose_cutover (s : State) (r : RouteNo) (why : CloseReason) : (s.performClose r why).cutover = s.cutover := rfl

/-! ### deferClose -/

@[simp] theorem State.deferClose_pending (s : State) (r : RouteNo) (why : CloseReason) : (s.deferClose r why).pending = s.pending := rfl
@[simp] theorem State.deferClose_supply (s : State) (r : RouteNo) (why : CloseReason) : (s.deferClose r why).supply = s.supply := rfl
@[simp] theorem State.deferClose_valid (s : State) (r : RouteNo) (why : CloseReason) : (s.deferClose r why).valid = s.valid := rfl
@[simp] theorem State.deferClose_links (s : State) (r : RouteNo) (why : CloseReason) : (s.deferClose r why).links = s.links := rfl
@[simp] theorem State.deferClose_intake (s : State) (r : RouteNo) (why : CloseReason) : (s.deferClose r why).intake = s.intake := rfl
@[simp] theorem State.deferClose_engine (s : State) (r : RouteNo) (why : CloseReason) : (s.deferClose r why).engine = s.engine := rfl
@[simp] theorem State.deferClose_terminals (s : State) (r : RouteNo) (why : CloseReason) : (s.deferClose r why).terminals = s.terminals := rfl
@[simp] theorem State.deferClose_keys (s : State) (r : RouteNo) (why : CloseReason) : (s.deferClose r why).keys = s.keys := rfl
@[simp] theorem State.deferClose_accounts (s : State) (r : RouteNo) (why : CloseReason) : (s.deferClose r why).accounts = s.accounts := rfl
@[simp] theorem State.deferClose_dispatch (s : State) (r : RouteNo) (why : CloseReason) : (s.deferClose r why).dispatch = s.dispatch := rfl
@[simp] theorem State.deferClose_cutover (s : State) (r : RouteNo) (why : CloseReason) : (s.deferClose r why).cutover = s.cutover := rfl

/-! ### ackRecord -/

@[simp] theorem State.ackRecord_pending (s : State) (r : RouteNo) (n : Nat) (rec : Record) : (s.ackRecord r n rec).pending = s.pending := rfl
@[simp] theorem State.ackRecord_supply (s : State) (r : RouteNo) (n : Nat) (rec : Record) : (s.ackRecord r n rec).supply = s.supply := rfl
@[simp] theorem State.ackRecord_valid (s : State) (r : RouteNo) (n : Nat) (rec : Record) : (s.ackRecord r n rec).valid = s.valid := rfl
@[simp] theorem State.ackRecord_status (s : State) (r : RouteNo) (n : Nat) (rec : Record) : (s.ackRecord r n rec).status = s.status := rfl
@[simp] theorem State.ackRecord_links (s : State) (r : RouteNo) (n : Nat) (rec : Record) : (s.ackRecord r n rec).links = s.links := rfl
@[simp] theorem State.ackRecord_intake (s : State) (r : RouteNo) (n : Nat) (rec : Record) : (s.ackRecord r n rec).intake = s.intake := rfl
@[simp] theorem State.ackRecord_engine (s : State) (r : RouteNo) (n : Nat) (rec : Record) : (s.ackRecord r n rec).engine = s.engine := rfl
@[simp] theorem State.ackRecord_keys (s : State) (r : RouteNo) (n : Nat) (rec : Record) : (s.ackRecord r n rec).keys = s.keys := rfl
@[simp] theorem State.ackRecord_accounts (s : State) (r : RouteNo) (n : Nat) (rec : Record) : (s.ackRecord r n rec).accounts = s.accounts := rfl
@[simp] theorem State.ackRecord_dispatch (s : State) (r : RouteNo) (n : Nat) (rec : Record) : (s.ackRecord r n rec).dispatch = s.dispatch := rfl
@[simp] theorem State.ackRecord_cutover (s : State) (r : RouteNo) (n : Nat) (rec : Record) : (s.ackRecord r n rec).cutover = s.cutover := rfl

/-! ### offerData -/

@[simp] theorem State.offerData_pending (s : State) (r : RouteNo) (c : RouteConfig) (n : Nat) (rec : Record) (e : Nat) : (s.offerData r c n rec e).pending = s.pending := rfl
@[simp] theorem State.offerData_supply (s : State) (r : RouteNo) (c : RouteConfig) (n : Nat) (rec : Record) (e : Nat) : (s.offerData r c n rec e).supply = s.supply := rfl
@[simp] theorem State.offerData_valid (s : State) (r : RouteNo) (c : RouteConfig) (n : Nat) (rec : Record) (e : Nat) : (s.offerData r c n rec e).valid = s.valid := rfl
@[simp] theorem State.offerData_status (s : State) (r : RouteNo) (c : RouteConfig) (n : Nat) (rec : Record) (e : Nat) : (s.offerData r c n rec e).status = s.status := rfl
@[simp] theorem State.offerData_links (s : State) (r : RouteNo) (c : RouteConfig) (n : Nat) (rec : Record) (e : Nat) : (s.offerData r c n rec e).links = s.links := rfl
@[simp] theorem State.offerData_intake (s : State) (r : RouteNo) (c : RouteConfig) (n : Nat) (rec : Record) (e : Nat) : (s.offerData r c n rec e).intake = s.intake := rfl
@[simp] theorem State.offerData_engine (s : State) (r : RouteNo) (c : RouteConfig) (n : Nat) (rec : Record) (e : Nat) : (s.offerData r c n rec e).engine = s.engine := rfl
@[simp] theorem State.offerData_keys (s : State) (r : RouteNo) (c : RouteConfig) (n : Nat) (rec : Record) (e : Nat) : (s.offerData r c n rec e).keys = s.keys := rfl
@[simp] theorem State.offerData_accounts (s : State) (r : RouteNo) (c : RouteConfig) (n : Nat) (rec : Record) (e : Nat) : (s.offerData r c n rec e).accounts = s.accounts := rfl
@[simp] theorem State.offerData_cutover (s : State) (r : RouteNo) (c : RouteConfig) (n : Nat) (rec : Record) (e : Nat) : (s.offerData r c n rec e).cutover = s.cutover := rfl

/-! ### offerClose -/

@[simp] theorem State.offerClose_pending (s : State) (r : RouteNo) (c : RouteConfig) (cl : CloseRecord) (e : Nat) : (s.offerClose r c cl e).pending = s.pending := rfl
@[simp] theorem State.offerClose_supply (s : State) (r : RouteNo) (c : RouteConfig) (cl : CloseRecord) (e : Nat) : (s.offerClose r c cl e).supply = s.supply := rfl
@[simp] theorem State.offerClose_valid (s : State) (r : RouteNo) (c : RouteConfig) (cl : CloseRecord) (e : Nat) : (s.offerClose r c cl e).valid = s.valid := rfl
@[simp] theorem State.offerClose_status (s : State) (r : RouteNo) (c : RouteConfig) (cl : CloseRecord) (e : Nat) : (s.offerClose r c cl e).status = s.status := rfl
@[simp] theorem State.offerClose_links (s : State) (r : RouteNo) (c : RouteConfig) (cl : CloseRecord) (e : Nat) : (s.offerClose r c cl e).links = s.links := rfl
@[simp] theorem State.offerClose_intake (s : State) (r : RouteNo) (c : RouteConfig) (cl : CloseRecord) (e : Nat) : (s.offerClose r c cl e).intake = s.intake := rfl
@[simp] theorem State.offerClose_engine (s : State) (r : RouteNo) (c : RouteConfig) (cl : CloseRecord) (e : Nat) : (s.offerClose r c cl e).engine = s.engine := rfl
@[simp] theorem State.offerClose_terminals (s : State) (r : RouteNo) (c : RouteConfig) (cl : CloseRecord) (e : Nat) : (s.offerClose r c cl e).terminals = s.terminals := rfl
@[simp] theorem State.offerClose_keys (s : State) (r : RouteNo) (c : RouteConfig) (cl : CloseRecord) (e : Nat) : (s.offerClose r c cl e).keys = s.keys := rfl
@[simp] theorem State.offerClose_accounts (s : State) (r : RouteNo) (c : RouteConfig) (cl : CloseRecord) (e : Nat) : (s.offerClose r c cl e).accounts = s.accounts := rfl
@[simp] theorem State.offerClose_cutover (s : State) (r : RouteNo) (c : RouteConfig) (cl : CloseRecord) (e : Nat) : (s.offerClose r c cl e).cutover = s.cutover := rfl

/-! ### reserveCounter -/

@[simp] theorem State.reserveCounter_pending (s : State) (f : FamilyNo) : (s.reserveCounter f).pending = s.pending := rfl
@[simp] theorem State.reserveCounter_supply (s : State) (f : FamilyNo) : (s.reserveCounter f).supply = s.supply := rfl
@[simp] theorem State.reserveCounter_valid (s : State) (f : FamilyNo) : (s.reserveCounter f).valid = s.valid := rfl
@[simp] theorem State.reserveCounter_links (s : State) (f : FamilyNo) : (s.reserveCounter f).links = s.links := rfl
@[simp] theorem State.reserveCounter_intake (s : State) (f : FamilyNo) : (s.reserveCounter f).intake = s.intake := rfl
@[simp] theorem State.reserveCounter_engine (s : State) (f : FamilyNo) : (s.reserveCounter f).engine = s.engine := rfl
@[simp] theorem State.reserveCounter_terminals (s : State) (f : FamilyNo) : (s.reserveCounter f).terminals = s.terminals := rfl
@[simp] theorem State.reserveCounter_accounts (s : State) (f : FamilyNo) : (s.reserveCounter f).accounts = s.accounts := rfl
@[simp] theorem State.reserveCounter_qm (s : State) (f : FamilyNo) : (s.reserveCounter f).qm = s.qm := rfl
@[simp] theorem State.reserveCounter_dispatch (s : State) (f : FamilyNo) : (s.reserveCounter f).dispatch = s.dispatch := rfl
@[simp] theorem State.reserveCounter_cutover (s : State) (f : FamilyNo) : (s.reserveCounter f).cutover = s.cutover := rfl

/-! ### reserve -/

@[simp] theorem State.reserve_pending (s : State) (q : Request) (p : WrapPlan) : (s.reserve q p).pending = s.pending := rfl
@[simp] theorem State.reserve_supply (s : State) (q : Request) (p : WrapPlan) : (s.reserve q p).supply = s.supply := rfl
@[simp] theorem State.reserve_valid (s : State) (q : Request) (p : WrapPlan) : (s.reserve q p).valid = s.valid := rfl
@[simp] theorem State.reserve_links (s : State) (q : Request) (p : WrapPlan) : (s.reserve q p).links = s.links := rfl
@[simp] theorem State.reserve_intake (s : State) (q : Request) (p : WrapPlan) : (s.reserve q p).intake = s.intake := rfl
@[simp] theorem State.reserve_engine (s : State) (q : Request) (p : WrapPlan) : (s.reserve q p).engine = .busy (s.reservationKept p) (s.reservationWork q p) := rfl
@[simp] theorem State.reserve_terminals (s : State) (q : Request) (p : WrapPlan) : (s.reserve q p).terminals = s.terminals := rfl
@[simp] theorem State.reserve_accounts (s : State) (q : Request) (p : WrapPlan) : (s.reserve q p).accounts = s.accounts := rfl
@[simp] theorem State.reserve_dispatch (s : State) (q : Request) (p : WrapPlan) : (s.reserve q p).dispatch = s.dispatch := rfl
@[simp] theorem State.reserve_cutover (s : State) (q : Request) (p : WrapPlan) : (s.reserve q p).cutover = s.cutover := rfl

/-! ### append -/

@[simp] theorem State.append_pending (s : State) (k : ReservationKept) (rec : Record) : (s.append k rec).pending = s.pending := rfl
@[simp] theorem State.append_supply (s : State) (k : ReservationKept) (rec : Record) : (s.append k rec).supply = s.supply := rfl
@[simp] theorem State.append_valid (s : State) (k : ReservationKept) (rec : Record) : (s.append k rec).valid = s.valid := rfl
@[simp] theorem State.append_status (s : State) (k : ReservationKept) (rec : Record) : (s.append k rec).status = s.status := rfl
@[simp] theorem State.append_links (s : State) (k : ReservationKept) (rec : Record) : (s.append k rec).links = s.links := rfl
@[simp] theorem State.append_intake (s : State) (k : ReservationKept) (rec : Record) : (s.append k rec).intake = s.intake := rfl
@[simp] theorem State.append_engine (s : State) (k : ReservationKept) (rec : Record) : (s.append k rec).engine = s.engine := rfl
@[simp] theorem State.append_terminals (s : State) (k : ReservationKept) (rec : Record) : (s.append k rec).terminals = s.terminals := rfl
@[simp] theorem State.append_keys (s : State) (k : ReservationKept) (rec : Record) : (s.append k rec).keys = s.keys := rfl
@[simp] theorem State.append_accounts (s : State) (k : ReservationKept) (rec : Record) : (s.append k rec).accounts = s.accounts := rfl
@[simp] theorem State.append_dispatch (s : State) (k : ReservationKept) (rec : Record) : (s.append k rec).dispatch = s.dispatch := rfl
@[simp] theorem State.append_cutover (s : State) (k : ReservationKept) (rec : Record) : (s.append k rec).cutover = s.cutover := rfl

/-! ### Entries after an update -/

@[simp] theorem State.term_setTerm (s : State) (t : TerminalNo) (e : Terminal) : (s.setTerm t e).term t = e :=
  Vec.get_put_same _ _ _

@[simp] theorem State.lane_setLane (s : State) (i : LaneNo) (k : Lane) : (s.setLane i k).lane i = k :=
  Vec.get_put_same _ _ _

@[simp] theorem State.family_setFamily (s : State) (f : FamilyNo) (k : Family) : (s.setFamily f k).family f = k :=
  Vec.get_put_same _ _ _

@[simp] theorem State.account_setAccount (s : State) (r : RouteNo) (a : RouteAccount) :
    (s.setAccount r a).account r = a := Vec.get_put_same _ _ _

@[simp] theorem State.queue_setQueue (s : State) (r : RouteNo) (q : RouteQueue) : (s.setQueue r q).queue r = q :=
  Vec.get_put_same _ _ _

@[simp] theorem State.route_setRoute (s : State) (r : RouteNo) (d : RouteDispatch) : (s.setRoute r d).route r = d :=
  Vec.get_put_same _ _ _

@[simp] theorem State.link_setLink (s : State) (l : LinkId) (k : Link) : (s.setLink l k).link l = k :=
  Vec.get_put_same _ _ _

/-- Different links stand at different places. -/
theorem linkIndex_injective {l m : LinkId} (h : linkIndex l = linkIndex m) : l = m := by
  cases l <;> cases m <;> simp_all [linkIndex, Fin.ext_iff] <;> omega

theorem State.link_setLink_ne (s : State) {l m : LinkId} (k : Link) (h : l ≠ m) : (s.setLink l k).link m = s.link m :=
  Vec.get_put_ne _ _ fun e => h (linkIndex_injective e)

theorem State.term_setTerm_ne (s : State) {t u : TerminalNo} (e : Terminal) (h : t ≠ u) :
    (s.setTerm t e).term u = s.term u := Vec.get_put_ne _ _ h

theorem State.lane_setLane_ne (s : State) {i j : LaneNo} (k : Lane) (h : i ≠ j) : (s.setLane i k).lane j = s.lane j :=
  Vec.get_put_ne _ _ h

theorem State.family_setFamily_ne (s : State) {f g : FamilyNo} (k : Family) (h : f ≠ g) :
    (s.setFamily f k).family g = s.family g := Vec.get_put_ne _ _ h

theorem State.account_setAccount_ne (s : State) {r q : RouteNo} (a : RouteAccount) (h : r ≠ q) :
    (s.setAccount r a).account q = s.account q := Vec.get_put_ne _ _ h

theorem State.queue_setQueue_ne (s : State) {r q : RouteNo} (k : RouteQueue) (h : r ≠ q) :
    (s.setQueue r k).queue q = s.queue q := Vec.get_put_ne _ _ h

theorem State.route_setRoute_ne (s : State) {r q : RouteNo} (d : RouteDispatch) (h : r ≠ q) :
    (s.setRoute r d).route q = s.route q := Vec.get_put_ne _ _ h

/-- An answer is the last entry of its link's response queue. -/
@[simp] theorem State.link_answer (s : State) (l : LinkId) (corr : Byte) (code : Code) (reply : Reply) :
    (s.answer l corr code reply).link l = (s.link l).push (.run (.answer corr code reply) []) :=
  Vec.get_put_same _ _ _

theorem State.link_answer_ne (s : State) {l m : LinkId} (corr : Byte) (code : Code) (reply : Reply) (h : l ≠ m) :
    (s.answer l corr code reply).link m = s.link m :=
  Vec.get_put_ne _ _ fun e => h (linkIndex_injective e)

end Sys2Proof.Machine
end

