-- ==== Sys2Proof/Laws/Store.lean ====
section
/-! SUPPORT. The laws of the record store: reading after writing and freeing, and the canonical form kept by every
operation. -/

namespace Sys2Proof.Machine

@[simp] theorem Store.find_put_same (st : List (Nat × Record)) (n : Nat) (r : Record) :
    Store.find (Store.put st n r) n = some r := by
  induction st with
  | nil => simp [Store.put, Store.find]
  | cons c rest ih =>
    simp only [Store.put]
    split
    · simp [Store.find]
    · split
      · simp [Store.find]
      · next h => simp [Store.find, h, ih]

theorem Store.find_put_ne (st : List (Nat × Record)) {n m : Nat} (r : Record) (h : m ≠ n) :
    Store.find (Store.put st n r) m = Store.find st m := by
  induction st with
  | nil => simp [Store.put, Store.find, Ne.symm h]
  | cons c rest ih =>
    simp only [Store.put]
    split
    · simp [Store.find, Ne.symm h]
    · split
      · next h2 => simp [Store.find, h2, Ne.symm h]
      · simp only [Store.find, ih]

theorem Store.find_free_same (st : List (Nat × Record)) (n : Nat) : Store.find (Store.free st n) n = none := by
  induction st with
  | nil => simp [Store.free, Store.find]
  | cons c rest ih =>
    unfold Store.free at ih ⊢
    by_cases h : c.1 = n
    · simp [h, ih]
    · simp [h, Store.find, ih]

theorem Store.find_free_ne (st : List (Nat × Record)) {n m : Nat} (h : m ≠ n) :
    Store.find (Store.free st n) m = Store.find st m := by
  induction st with
  | nil => simp [Store.free, Store.find]
  | cons c rest ih =>
    unfold Store.free at ih ⊢
    by_cases hc : c.1 = n
    · simp [hc, Store.find, ih, Ne.symm h]
    · simp only [List.filter_cons, bne_iff_ne, ne_eq, hc, not_false_eq_true, if_true, Store.find, ih]

/-- A slot that reads a record is listed with it. -/
theorem Store.mem_of_find {st : List (Nat × Record)} {n : Nat} {r : Record} (h : Store.find st n = some r) :
    (n, r) ∈ st := by
  induction st with
  | nil => simp [Store.find] at h
  | cons c rest ih =>
    simp only [Store.find] at h
    split at h
    · next e =>
      cases h
      rw [← e]
      exact List.mem_cons_self
    · exact List.mem_cons_of_mem _ (ih h)

/-- Every slot listed after a write is the one written or was listed before. -/
theorem Store.mem_put {st : List (Nat × Record)} {n : Nat} {r : Record} {c : Nat × Record} (h : c ∈ Store.put st n r) :
    c = (n, r) ∨ c ∈ st := by
  induction st with
  | nil => simpa [Store.put] using h
  | cons d rest ih =>
    simp only [Store.put] at h
    split at h
    · simpa using h
    · split at h
      · rcases List.mem_cons.mp h with rfl | h
        · exact Or.inl rfl
        · exact Or.inr (List.mem_cons_of_mem _ h)
      · rcases List.mem_cons.mp h with rfl | h
        · exact Or.inr List.mem_cons_self
        · rcases ih h with h | h
          · exact Or.inl h
          · exact Or.inr (List.mem_cons_of_mem _ h)

/-- The canonical form says that the slot numbers are strictly increasing. -/
theorem Store.wf_iff (st : List (Nat × Record)) : Store.wf st = true ↔ (st.map (·.1)).Pairwise (· < ·) := by
  induction st with
  | nil => simp [Store.wf]
  | cons a rest ih =>
    cases rest with
    | nil => simp [Store.wf]
    | cons b rest =>
      simp only [Store.wf, Bool.and_eq_true, decide_eq_true_eq, ih, List.map_cons, List.pairwise_cons]
      constructor
      · rintro ⟨hab, hb, hr⟩
        refine ⟨?_, hb, hr⟩
        intro x hx
        rcases List.mem_cons.mp hx with rfl | hx
        · exact hab
        · exact Nat.lt_trans hab (hb x hx)
      · rintro ⟨ha, hb, hr⟩
        exact ⟨ha _ List.mem_cons_self, hb, hr⟩

theorem Store.wf_free {st : List (Nat × Record)} (n : Nat) (h : Store.wf st = true) :
    Store.wf (Store.free st n) = true := by
  rw [Store.wf_iff] at h ⊢
  exact h.sublist (List.filter_sublist.map _)

theorem Store.wf_put {st : List (Nat × Record)} (n : Nat) (r : Record) (h : Store.wf st = true) :
    Store.wf (Store.put st n r) = true := by
  rw [Store.wf_iff] at h ⊢
  induction st with
  | nil => simp [Store.put]
  | cons c rest ih =>
    rw [List.map_cons, List.pairwise_cons] at h
    simp only [Store.put]
    split
    · next hn =>
      simp only [List.map_cons, List.pairwise_cons]
      refine ⟨?_, h.1, h.2⟩
      intro x hx
      rcases List.mem_cons.mp hx with rfl | hx
      · exact hn
      · exact Nat.lt_trans hn (h.1 x hx)
    · split
      · next hc =>
        simp only [List.map_cons, List.pairwise_cons]
        exact ⟨fun x hx => hc ▸ h.1 x hx, h.2⟩
      · next hn hc =>
        simp only [List.map_cons, List.pairwise_cons]
        refine ⟨?_, ih h.2⟩
        intro x hx
        obtain ⟨d, hd, rfl⟩ := List.mem_map.mp hx
        rcases Store.mem_put hd with rfl | hd
        · show c.1 < n
          omega
        · exact h.1 _ (List.mem_map_of_mem hd)

/-- A rewind rewrites records in place: the same slots are listed. -/
theorem rewindSlots_slots (st : List (Nat × Record)) (ns : List Nat) :
    (rewindSlots st ns).map (·.1) = st.map (·.1) := by
  unfold rewindSlots
  rw [List.map_map]
  congr 1
  funext c
  simp only [Function.comp]
  split <;> rfl

/-- A rewind rewrites the records of its slots, where they stand, and no other (R104). -/
theorem find_rewindSlots (st : List (Nat × Record)) (ns : List Nat) (n : Nat) :
    Store.find (rewindSlots st ns) n = (Store.find st n).map fun rec => if n ∈ ns then rec.rewound else rec := by
  induction st with
  | nil => rfl
  | cons c rest ih =>
    unfold rewindSlots at ih ⊢
    rw [List.map_cons]
    by_cases hc : c.1 = n
    · by_cases hn : n ∈ ns <;> simp [Store.find, hc, hn]
    · have : (if ns.contains c.1 = true then (c.1, c.2.rewound) else c).1 = c.1 := by split <;> rfl
      simp only [Store.find, this, hc, if_false, ih]

theorem rewindSlots_wf {st : List (Nat × Record)} (ns : List Nat) (h : Store.wf st = true) :
    Store.wf (rewindSlots st ns) = true := by
  rw [Store.wf_iff] at h ⊢
  rw [rewindSlots_slots]
  exact h

/-- The sweep of a ring's top frees slots and keeps the canonical form (R105). -/
theorem sweepTop_wf {place : RingPlace} {n : Nat} {g : Ring} {st : List (Nat × Record)} (h : Store.wf st = true) :
    Store.wf (sweepTop place n g st).2 = true := by
  induction n generalizing g st with
  | zero => exact h
  | succ n ih =>
    simp only [sweepTop]
    split
    · exact ih (Store.wf_free _ h)
    · exact h

/-- What an acknowledgement frees keeps the canonical form (R105, R106). -/
theorem freeAfterAck_wf {qm : QueueManager} {r : RouteNo} {place : RingPlace} {slot : Nat}
    (h : Store.wf qm.slots = true) : Store.wf (freeAfterAck qm r place slot).slots = true := by
  simp only [freeAfterAck]
  split
  · exact Store.wf_free _ h
  · split
    · dsimp only
      split
      · exact sweepTop_wf h
      · exact h
    · dsimp only
      split
      · exact sweepTop_wf h
      · exact h

end Sys2Proof.Machine
end

