-- ==== Sys2Proof/Laws/Queues.lean ====
section
/-! SUPPORT. Everything the shared operations of the queues, the closes, the offers and the acknowledgements can do, said
once per operation. -/

namespace Sys2Proof.Machine

/-! ### Closes (R109, R111) -/

/-- The four outcomes of a requested close (R109, R111). -/
theorem requestClose_cases (s : State) (r : RouteNo) (why : CloseReason) :
    (∃ p, (s.queue r).pending = some p ∧ s.requestClose r why = (s, .joined p.reason p.wait)) ∨
    ((s.queue r).pending = none ∧ (s.queue r).buffer.isSome ∧ s.requestClose r why = (s.deferClose r why, .waits .buffer)) ∨
    ((s.queue r).pending = none ∧ (s.queue r).buffer = none ∧ s.engine.servesRoute r = true ∧
      s.requestClose r why = (s.setQueue r { s.queue r with pending := some ⟨why, .wrap, false⟩ }, .waits .wrap)) ∨
    ((s.queue r).pending = none ∧ (s.queue r).buffer = none ∧ s.engine.servesRoute r = false ∧
      s.requestClose r why = (s.performClose r why, .performed ⟨r, (s.queue r).batch, (s.queue r).nextSeq⟩)) := by
  unfold State.requestClose
  dsimp only
  cases hp : (s.queue r).pending with
  | some p => exact Or.inl ⟨p, rfl, rfl⟩
  | none =>
    cases hb : (s.queue r).buffer with
    | some c => exact Or.inr (Or.inl ⟨rfl, rfl, by simp⟩)
    | none =>
      cases hw : s.engine.servesRoute r with
      | true => exact Or.inr (Or.inr (Or.inl ⟨rfl, rfl, rfl, by simp⟩))
      | false => exact Or.inr (Or.inr (Or.inr ⟨rfl, rfl, rfl, by simp⟩))

/-- A close pending on a FREE buffer: nothing, a wait for the wrap, or the close (R111). -/
theorem settleDeferred_cases (s : State) (r : RouteNo) :
    s.settleDeferred r = s ∨
    (∃ p, (s.queue r).pending = some p ∧ s.engine.servesRoute r = true ∧
      s.settleDeferred r = s.setQueue r { s.queue r with pending := some { p with wait := .wrap } }) ∨
    (∃ p, (s.queue r).pending = some p ∧ (s.queue r).buffer = none ∧ s.engine.servesRoute r = false ∧
      s.settleDeferred r = s.performClose r p.reasonNow) := by
  unfold State.settleDeferred
  dsimp only
  cases hp : (s.queue r).pending with
  | none => exact Or.inl rfl
  | some p =>
    dsimp only
    split
    · next h =>
      cases hw : s.engine.servesRoute r with
      | true => exact Or.inr (Or.inl ⟨p, rfl, rfl, rfl⟩)
      | false => exact Or.inr (Or.inr ⟨p, rfl, h.2, rfl, rfl⟩)
    · exact Or.inl rfl

/-- A close that waited for a wrap: nothing, or the close (R94). -/
theorem settleWaiting_cases (s : State) (r : RouteNo) :
    s.settleWaiting r = s ∨
    (∃ p, (s.queue r).pending = some p ∧ (s.queue r).buffer = none ∧ s.settleWaiting r = s.performClose r p.reasonNow) := by
  unfold State.settleWaiting
  dsimp only
  cases hp : (s.queue r).pending with
  | none => exact Or.inl rfl
  | some p =>
    dsimp only
    split
    · next h => exact Or.inr ⟨p, rfl, h.2, rfl⟩
    · exact Or.inl rfl

/-- A close due at a completion: nothing, the batch-full flag, a close performed, or the flag with a deferred close (R91,
R112). -/
theorem dueClose_cases (s : State) (r : RouteNo) (last : Bool) :
    s.dueClose r last = s ∨
    (∃ why, (s.queue r).buffer = none ∧ s.dueClose r last = s.performClose r why) ∨
    s.dueClose r last = s.setQueue r (s.queue r).setFull ∨
    s.dueClose r last = (s.setQueue r (s.queue r).setFull).deferClose r .batchFull := by
  unfold State.dueClose
  dsimp only
  cases hp : (s.queue r).pending with
  | some p =>
    dsimp only
    split
    · next h => exact Or.inr (Or.inl ⟨_, h, rfl⟩)
    · split
      · exact Or.inr (Or.inr (Or.inl rfl))
      · exact Or.inl rfl
  | none =>
    dsimp only
    split
    · split
      · next h => exact Or.inr (Or.inl ⟨_, h, rfl⟩)
      · exact Or.inr (Or.inr (Or.inr rfl))
    · exact Or.inl rfl

/-! ### Selection and offers (R119 to R121) -/

/-- The drain ratio keeps e from 1 to drain plus (R120). -/
theorem drainChoice_range {e plus minus : Nat} (live store : Nat × Record) (he : 1 ≤ e ∧ e ≤ plus)
    (hm : 1 ≤ minus ∧ minus ≤ plus) :
    1 ≤ (drainChoice e plus minus live store).2 ∧ (drainChoice e plus minus live store).2 ≤ plus := by
  unfold drainChoice
  split <;> dsimp only <;> omega

/-- Every choice keeps e from 1 to drain plus (R119, R120). -/
theorem chooseHead_range {e plus minus e' : Nat} {close : Option CloseRecord} {live store : Option (Nat × Record)}
    {c : Choice} (he : 1 ≤ e ∧ e ≤ plus) (hm : 1 ≤ minus ∧ minus ≤ plus)
    (h : chooseHead e plus minus close live store = some (c, e')) : 1 ≤ e' ∧ e' ≤ plus := by
  unfold chooseHead at h
  cases close with
  | some cl => cases h; exact he
  | none =>
    cases live with
    | none =>
      cases store with
      | none => cases h
      | some st => cases h; exact he
    | some l =>
      cases store with
      | none => cases h; exact he
      | some st =>
        have := drainChoice_range l st he hm
        simp only [Option.some.injEq] at h
        rw [h] at this
        exact this

/-- An offer is the offer of the record chosen (R121). -/
theorem offer_cases {s : State} {r : RouteNo} {c : RouteConfig} {corr : Byte} {s' : State} {m : Message}
    (h : s.offer r c corr = some (s', m)) :
    (∃ slot rec e, s.choose r c = some (.data slot rec, e) ∧ s' = s.offerData r c slot rec e ∧
      m = .offered corr r (tagOf c (s.route r).tag) (.data rec.offering)) ∨
    (∃ cl e, s.choose r c = some (.close cl, e) ∧ s' = s.offerClose r c cl e ∧
      m = .offered corr r (tagOf c (s.route r).tag) (.close cl.offering)) := by
  unfold State.offer at h
  dsimp only at h
  split at h
  · cases h
  · next slot rec e hc => cases h; exact Or.inl ⟨slot, rec, e, hc, rfl, rfl⟩
  · next cl e hc => cases h; exact Or.inr ⟨cl, e, hc, rfl, rfl⟩

/-- What every offer keeps, the offers of a PULL BLOCK keep (R123). -/
theorem offerRun_keeps (P : State → Prop) {r : RouteNo} {c : RouteConfig} {corr : Byte}
    (hoffer : ∀ b b' m, P b → b.windowOpen r c = true → b.offer r c corr = some (b', m) → P b') (n : Nat) (s : State)
    (h : P s) : P (State.offerRun r c corr n s).state := by
  induction n generalizing s with
  | zero => exact h
  | succ n ih =>
    simp only [State.offerRun]
    split
    · next hw =>
      split
      · exact h
      · next s' m he => exact ih s' (hoffer s s' m h hw he)
    · exact h

/-! ### Taking a route DOWN, acknowledgements -/

/-- Taking a route DOWN without a stream (R118). -/
theorem takeDown_closed {s : State} {r : RouteNo} (why : DownReason) (cause : EndCause) (h : (s.route r).stream = none) :
    s.takeDown r why cause = (s.rewind r).setRoute r ((s.route r).takenDown why) := by
  simp [State.takeDown, h]

/-- Taking a route DOWN with an OPEN stream: STREAM_END first (R118, R132). -/
theorem takeDown_open {s : State} {r : RouteNo} {st : OpenStream} (why : DownReason) (cause : EndCause)
    (h : (s.route r).stream = some st) :
    s.takeDown r why cause =
      ((s.send st.link (.streamEnd st.corr r cause)).rewind r).setRoute r ((s.route r).takenDown why) := by
  simp [State.takeDown, h]

/-- The queues' part of an acknowledgement: nothing, a data record acknowledged, or the close buffer freed (R130). -/
theorem ackAtQueues_cases (s : State) (r : RouteNo) (id : Identity) :
    s.ackAtQueues r id = s ∨
    (∃ n rec, s.slotOf r id = some n ∧ s.at? n = some rec ∧ rec.state = .offered ∧
      s.ackAtQueues r id = s.ackRecord r n rec) ∨
    (∃ cl, (s.queue r).buffer = some cl ∧ cl.id = id ∧
      s.ackAtQueues r id = (s.setQueue r { s.queue r with buffer := none }).settleDeferred r) := by
  unfold State.ackAtQueues
  cases hs : s.slotOf r id with
  | some n =>
    dsimp only
    cases ha : s.at? n with
    | none => exact Or.inl rfl
    | some rec =>
      dsimp only
      split
      · next h => exact Or.inr (Or.inl ⟨n, rec, rfl, ha, h, rfl⟩)
      · exact Or.inl rfl
  | none =>
    dsimp only
    cases hb : (s.queue r).buffer with
    | none => exact Or.inl rfl
    | some cl =>
      dsimp only
      split
      · next h => exact Or.inr (Or.inr ⟨cl, rfl, h, rfl⟩)
      · exact Or.inl rfl

/-- What every acknowledgement keeps, ACK THROUGH keeps (R129). -/
theorem acknowledgeAll_keeps (P : State → Prop) {r : RouteNo} {c : RouteConfig}
    (hack : ∀ b id, P b → P (b.acknowledge r c id)) (ids : List Identity) (s : State) (h : P s) :
    P (s.acknowledgeAll r c ids) := by
  unfold State.acknowledgeAll
  induction ids generalizing s with
  | nil => exact h
  | cons id rest ih => exact ih _ (hack s id h)

/-! ### The Terminal Table's reports (R17) -/

/-- A report that reaches no entry changes nothing (R17). -/
theorem reportTo_unheard {engine : Engine} {ts : Vector Terminal 64} {t : TerminalNo} {id : Identity} {ev : RecordEvent}
    (h : (Vec.get ts t).history.any (fun e => e.hears id ev) = false) : reportTo engine ts t id ev = ts := by
  simp [reportTo, h]

/-- A report reaches no entry but its terminal's (R17). -/
theorem reportTo_other {engine : Engine} {ts : Vector Terminal 64} {t u : TerminalNo} {id : Identity} {ev : RecordEvent}
    (h : t ≠ u) : Vec.get (reportTo engine ts t id ev) u = Vec.get ts u := by
  unfold reportTo
  dsimp only
  split
  · exact Vec.get_put_ne _ _ h
  · rfl

/-- A report leaves till sequences as they are (R17). -/
theorem reportHistory_tills (id : Identity) (ev : RecordEvent) (hs : List HistoryEntry) :
    (reportHistory id ev hs).map (·.till) = hs.map (·.till) := by
  unfold reportHistory
  rw [List.map_map]
  congr 1
  funext h
  simp only [Function.comp]
  split <;> rfl

/-- The release test makes an entry VACANT or leaves it (R11). -/
theorem release_cases (engine : Engine) (t : TerminalNo) (e : Terminal) :
    (releasable engine t e = true ∧ release engine t e = Terminal.vacant) ∨
    (releasable engine t e = false ∧ release engine t e = e) := by
  unfold release
  cases h : releasable engine t e <;> simp

/-! ### Rings: offer point and sweep (R99, R105) -/

/-- The offer point is at the first PENDING record at or after top, or at bottom (R99). -/
theorem seekOffer_first (g : Ring) (place : RingPlace) (slots : List (Nat × Record)) :
    (∀ x, g.top ≤ x → x < (g.seekOffer place slots).offer → x < g.bottom → slotIs slots (place.slot x) .pending = false) ∧
    ((g.seekOffer place slots).offer = g.bottom ∨
      (g.top ≤ (g.seekOffer place slots).offer ∧ (g.seekOffer place slots).offer < g.bottom ∧
        slotIs slots (place.slot (g.seekOffer place slots).offer) .pending = true)) := by
  unfold Ring.seekOffer Ring.positions Ring.occupancy
  dsimp only
  cases hf : (List.range' g.top (g.bottom - g.top)).find? fun p => slotIs slots (place.slot p) .pending with
  | none =>
    refine ⟨fun x hx _ hb => ?_, Or.inl rfl⟩
    have := List.find?_eq_none.mp hf x (List.mem_range'_1.mpr ⟨hx, by omega⟩)
    simpa using this
  | some p =>
    obtain ⟨hp, k, hk, rfl, hall⟩ := List.find?_eq_some_iff_getElem.mp hf
    rw [List.length_range'] at hk
    simp only [List.getElem_range', Nat.one_mul] at *
    refine ⟨fun x hx hlt _ => ?_, Or.inr ⟨by simp, by simp; omega, by simpa using hp⟩⟩
    simp only [Option.getD_some] at hlt
    have := hall (x - g.top) (by omega)
    rw [show g.top + (x - g.top) = x by omega] at this
    simpa using this

/-- What the sweep of a ring from its top does (R105): top advances over ACKED records alone, whose slots are freed, until it
meets one that is not ACKED or has passed as many positions as it may; every other slot is as it was. -/
theorem sweepTop_spec (place : RingPlace) (n : Nat) (g : Ring) (slots : List (Nat × Record)) :
    let out := sweepTop place n g slots
    g.top ≤ out.1.top ∧ out.1.top ≤ g.top + n ∧ out.1.bottom = g.bottom ∧
    (∀ x, g.top ≤ x → x < out.1.top →
      slotIs slots (place.slot x) .acked = true ∧ Store.find out.2 (place.slot x) = none) ∧
    (out.1.top < g.top + n → slotIs out.2 (place.slot out.1.top) .acked = false) ∧
    (∀ m, (∀ x, g.top ≤ x → x < out.1.top → place.slot x ≠ m) → Store.find out.2 m = Store.find slots m) := by
  induction n generalizing g slots with
  | zero => exact ⟨le_refl _, le_refl _, rfl, fun x h1 h2 => by simp only [sweepTop] at h2; omega, fun h => by simp [sweepTop] at h, fun m _ => rfl⟩
  | succ n ih =>
    by_cases hs : slotIs slots (place.slot g.top) .acked = true
    · have he : sweepTop place (n + 1) g slots =
          sweepTop place n { g with top := g.top + 1 } (Store.free slots (place.slot g.top)) := by
        rw [sweepTop, if_pos hs]
      obtain ⟨h1, h2, h3, h4, h5, h6⟩ := ih { g with top := g.top + 1 } (Store.free slots (place.slot g.top))
      rw [he]
      dsimp only at *
      have hkeep : ∀ m, m ≠ place.slot g.top → slotIs (Store.free slots (place.slot g.top)) m .acked = slotIs slots m .acked := by
        intro m hm
        simp [slotIs, Store.find_free_ne slots hm]
      have hgone : slotIs (Store.free slots (place.slot g.top)) (place.slot g.top) .acked = false := by
        simp [slotIs, Store.find_free_same]
      refine ⟨by omega, by omega, h3, fun x hx hlt => ?_, fun h => h5 (by omega), fun m hm => ?_⟩
      · by_cases hxt : x = g.top
        · subst hxt
          refine ⟨hs, ?_⟩
          by_cases hex : ∃ y, g.top + 1 ≤ y ∧ y < (sweepTop place n { g with top := g.top + 1 } (Store.free slots (place.slot g.top))).1.top ∧ place.slot y = place.slot g.top
          · obtain ⟨y, hy1, hy2, hy3⟩ := hex
            have := (h4 y hy1 hy2).2
            rw [hy3] at this
            exact this
          · rw [h6 _ fun y hy1 hy2 hy3 => hex ⟨y, hy1, hy2, hy3⟩, Store.find_free_same]
        · obtain ⟨ha, hb⟩ := h4 x (by omega) hlt
          refine ⟨?_, hb⟩
          by_cases hm : place.slot x = place.slot g.top
          · rw [hm]; exact hs
          · rw [hkeep _ hm] at ha; exact ha
      · rw [h6 m fun x h1 h2 => hm x (by omega) h2, Store.find_free_ne]
        exact fun h => hm g.top (le_refl _) (by omega) h.symm
    · have he : sweepTop place (n + 1) g slots = (g, slots) := by rw [sweepTop, if_neg hs]
      rw [he]
      exact ⟨le_refl _, by simp, rfl, fun x h1 h2 => by dsimp only at h2; omega, fun _ => by simpa using hs, fun _ _ => rfl⟩

/-! ### The reports of a rewind (R17, R104) -/

/-- A report of a rewind to a terminal entry: its matching OFFERED entries become PENDING, and since something is then
PENDING the release test leaves the entry (R17, R104). -/
theorem reportTo_rewound (engine : Engine) (ts : Vector Terminal 64) (t : TerminalNo) (id : Identity) :
    reportTo engine ts t id .rewound =
      Vec.put ts t { Vec.get ts t with history := reportHistory id .rewound (Vec.get ts t).history } := by
  unfold reportTo
  dsimp only
  cases hh : (Vec.get ts t).history.any (fun h => h.hears id .rewound) with
  | true =>
    rw [if_pos rfl]
    obtain ⟨h, hm, hh⟩ := List.any_eq_true.mp hh
    have hout : (reportHistory id .rewound (Vec.get ts t).history).any HistoryEntry.outstanding = true :=
      List.any_eq_true.mpr ⟨_, List.mem_map.mpr ⟨h, hm, rfl⟩, by simp [hh, HistoryEntry.outstanding, RecordEvent.after]⟩
    rw [release, if_neg (by simp [releasable, hout])]
  | false =>
    have hsame : reportHistory id .rewound (Vec.get ts t).history = (Vec.get ts t).history := by
      unfold reportHistory
      refine (List.map_congr_left fun h hm => ?_).trans (List.map_id _)
      have := List.any_eq_false.mp hh h hm
      simp [this]
    rw [hsame]
    exact (Vec.put_get _ _).symm

/-- One of some slots holds an OFFERED record of a terminal with an identity. -/
def offeredIn (slots : List (Nat × Record)) (ns : List Nat) (tn : TerminalNo) (id : Identity) : Bool :=
  ns.any fun n =>
    match Store.find slots n with
    | some rec => rec.state == .offered && rec.terminal == tn && rec.id == id
    | none => false

/-- What the reports of a rewind do to an entry: the OFFERED history entries of the records it makes PENDING become PENDING
(R17, R104). -/
theorem rewindReports_get (engine : Engine) (slots : List (Nat × Record)) (ns : List Nat) (ts : Vector Terminal 64)
    (tn : TerminalNo) :
    Vec.get (rewindReports engine slots ns ts) tn =
      { Vec.get ts tn with history := (Vec.get ts tn).history.map fun h =>
          if h.disposition = .offered ∧ offeredIn slots ns tn h.id = true then { h with disposition := .pending } else h } := by
  induction ns generalizing ts with
  | nil => simp [rewindReports, offeredIn]
  | cons n rest ih =>
    have hstep : rewindReports engine slots (n :: rest) ts = rewindReports engine slots rest
        (match Store.find slots n with
          | some rec => if rec.state = .offered then reportTo engine ts rec.terminal rec.id .rewound else ts
          | none => ts) := rfl
    rw [hstep, ih]
    have hskip : (∀ id, offeredIn slots (n :: rest) tn id = offeredIn slots rest tn id) → ∀ e : Terminal, 
      { e with history := e.history.map fun h =>
          if h.disposition = .offered ∧ offeredIn slots rest tn h.id = true then { h with disposition := .pending } else h } =
      ({ e with history := e.history.map fun h =>
          if h.disposition = .offered ∧ offeredIn slots (n :: rest) tn h.id = true then { h with disposition := .pending } else h } : Terminal) := by
      intro h e
      simp only [h]
    cases hf : Store.find slots n with
    | none => exact hskip (fun id => by simp [offeredIn, hf]) _
    | some rec =>
      dsimp only
      by_cases ho : rec.state = .offered
      · rw [if_pos ho, reportTo_rewound]
        by_cases ht : rec.terminal = tn
        · subst ht
          rw [Vec.get_put_same]
          dsimp only
          unfold reportHistory
          rw [List.map_map]
          congr 1
          refine List.map_congr_left fun h _ => ?_
          have hcons : offeredIn slots (n :: rest) rec.terminal h.id =
              (decide (h.id = rec.id) || offeredIn slots rest rec.terminal h.id) := by
            simp [offeredIn, hf, ho, Bool.beq_eq_decide_eq, eq_comm]
          rw [hcons]
          by_cases hi : h.id = rec.id
          · by_cases hd : h.disposition = .offered <;>
              simp [HistoryEntry.hears, RecordEvent.before, RecordEvent.after, hd, hi]
          · simp [HistoryEntry.hears, hi]
        · rw [Vec.get_put_ne _ _ ht]
          exact hskip (fun id => by simp [offeredIn, hf, ht]) _
      · rw [if_neg ho]
        exact hskip (fun id => by simp [offeredIn, hf, ho]) _

/-! ### A route's slots and its rewind (R99, R104) -/

/-- The positions of a ring run from top up to bottom (R99). -/
theorem Ring.mem_positions (g : Ring) (x : Nat) : x ∈ g.positions ↔ g.top ≤ x ∧ x < g.bottom := by
  unfold Ring.positions Ring.occupancy
  rw [List.mem_range'_1]
  omega

theorem slotIs_iff (s : State) (n : Nat) (st : RecordState) :
    slotIs s.qm.slots n st = true ↔ ∃ rec, s.at? n = some rec ∧ rec.state = st := by
  unfold slotIs State.at?
  cases Store.find s.qm.slots n <;> simp

/-- A position of the live ring names a slot of the route (R99). -/
theorem live_mem_slotsOf (s : State) (r : RouteNo) {x : Nat} (h1 : (s.queue r).live.top ≤ x)
    (h2 : x < (s.queue r).live.bottom) : (livePlace r).slot x ∈ s.slotsOf r := by
  simp only [State.slotsOf, routeSlots, RouteQueue.liveSlots, List.append_assoc, List.mem_append]
  exact Or.inl (List.mem_map_of_mem ((Ring.mem_positions _ _).mpr ⟨h1, h2⟩))

/-- A position of the store ring names a slot of the route (R99). -/
theorem store_mem_slotsOf (s : State) (r : RouteNo) {x : Nat} (h1 : (s.queue r).store.top ≤ x)
    (h2 : x < (s.queue r).store.bottom) : (s.storePlace r).slot x ∈ s.slotsOf r := by
  simp only [State.slotsOf, routeSlots, RouteQueue.ringSlots, List.append_assoc, List.mem_append]
  exact Or.inr (Or.inl (List.mem_map_of_mem ((Ring.mem_positions _ _).mpr ⟨h1, h2⟩)))

/-- The offer point depends on the ring's own slots alone (R99). -/
theorem seekOffer_congr (g : Ring) (place : RingPlace) (a b : List (Nat × Record))
    (h : ∀ x, g.top ≤ x → x < g.bottom → Store.find a (place.slot x) = Store.find b (place.slot x)) :
    g.seekOffer place a = g.seekOffer place b := by
  unfold Ring.seekOffer
  congr 2
  apply List.find?_congr
  intro x hx
  obtain ⟨h1, h2⟩ := (Ring.mem_positions g x).mp hx
  simp only [slotIs, h x h1 h2]

theorem rewind_at (s : State) (r : RouteNo) (n : Nat) :
    (s.rewind r).at? n = (s.at? n).map fun rec => if n ∈ s.slotsOf r then rec.rewound else rec :=
  find_rewindSlots _ _ _

theorem rewind_queue_self (s : State) (r : RouteNo) :
    (s.rewind r).queue r = (s.queue r).rewound r (s.storePlace r) (s.rewind r).qm.slots := by
  simp [State.rewind, State.queue]

theorem rewind_queue_ne (s : State) {r q : RouteNo} (h : r ≠ q) : (s.rewind r).queue q = s.queue q := by
  simp [State.rewind, State.queue, h]

theorem rewind_slotsOf (s : State) (r q : RouteNo) : (s.rewind r).slotsOf q = s.slotsOf q := by
  unfold State.slotsOf
  by_cases h : r = q
  · subst h
    rw [rewind_queue_self]
    rfl
  · rw [rewind_queue_ne s h]
    rfl

theorem rewind_term (s : State) (r : RouteNo) (tn : TerminalNo) :
    (s.rewind r).term tn = { s.term tn with history := (s.term tn).history.map fun h =>
      if h.disposition = .offered ∧ offeredIn s.qm.slots (s.slotsOf r) tn h.id = true then
        { h with disposition := .pending } else h } :=
  rewindReports_get _ _ _ _ _

/-- After its rewind a route holds no OFFERED record (R104). -/
theorem rewind_none_offered (s : State) (r : RouteNo) {n : Nat} (hn : n ∈ s.slotsOf r) {rec : Record}
    (h : (s.rewind r).at? n = some rec) : rec.state ≠ .offered := by
  rw [rewind_at] at h
  cases hf : s.at? n with
  | none => rw [hf] at h; simp at h
  | some x =>
    rw [hf] at h
    simp only [hn, if_true, Option.map_some, Option.some.injEq] at h
    subst h
    unfold Record.rewound
    split <;> simp_all

/-! ### Release and reports of an offer and an acknowledgement (R11, R17) -/

@[simp] theorem release_vacant (engine : Engine) (n : TerminalNo) :
    release engine n Terminal.vacant = Terminal.vacant := by
  unfold release
  split <;> rfl

/-- The release test applied twice is applied once (R11). -/
@[simp] theorem release_release (engine : Engine) (n : TerminalNo) (e : Terminal) :
    release engine n (release engine n e) = release engine n e := by
  rcases release_cases engine n e with ⟨_, k⟩ | ⟨_, k⟩
  · rw [k, release_vacant]
  · rw [k, k]

theorem performClose_term (s : State) (r : RouteNo) (why : CloseReason) (n : TerminalNo) :
    (s.performClose r why).term n =
      if (s.term n).route = r then release s.engine n { s.term n with totals := Totals.zero } else s.term n := by
  simp only [State.performClose, State.term, closeTerminals, Vec.get_gen]
  rfl

/-- A report whose entry no history entry hears leaves the list as it is (R17). -/
theorem reportHistory_unheard {id : Identity} {ev : RecordEvent} {hs : List HistoryEntry}
    (h : hs.any (fun x => x.hears id ev) = false) : reportHistory id ev hs = hs := by
  unfold reportHistory
  refine (List.map_congr_left fun x hm => ?_).trans (List.map_id _)
  have := List.any_eq_false.mp h x hm
  simp [this]

/-- A report of an offer: the matching PENDING entries become OFFERED, and since something is then outstanding the release
test leaves the entry (R11, R17). -/
theorem reportTo_offered (engine : Engine) (ts : Vector Terminal 64) (t : TerminalNo) (id : Identity) :
    reportTo engine ts t id .offered =
      Vec.put ts t { Vec.get ts t with history := reportHistory id .offered (Vec.get ts t).history } := by
  unfold reportTo
  dsimp only
  cases hh : (Vec.get ts t).history.any (fun h => h.hears id .offered) with
  | true =>
    obtain ⟨h, hm, hh⟩ := List.any_eq_true.mp hh
    have hout : (reportHistory id .offered (Vec.get ts t).history).any HistoryEntry.outstanding = true :=
      List.any_eq_true.mpr ⟨_, List.mem_map.mpr ⟨h, hm, rfl⟩, by simp [hh, HistoryEntry.outstanding, RecordEvent.after]⟩
    rw [if_pos rfl, release, if_neg (by simp [releasable, hout])]
  | false =>
    rw [if_neg (by simp), reportHistory_unheard hh]
    exact (Vec.put_get _ _).symm

/-- An offer changes the queues, the Terminal Table and the dispatch state, and nothing else (R121). -/
theorem offer_frame {s : State} {r : RouteNo} {c : RouteConfig} {corr : Byte} {s' : State} {m : Message}
    (h : s.offer r c corr = some (s', m)) :
    s'.links = s.links ∧ s'.status = s.status ∧ s'.accounts = s.accounts ∧ s'.keys = s.keys ∧ s'.intake = s.intake ∧
      s'.engine = s.engine ∧ s'.cutover = s.cutover := by
  rcases offer_cases h with ⟨_, _, _, _, rfl, _⟩ | ⟨_, _, _, rfl, _⟩ <;> exact ⟨rfl, rfl, rfl, rfl, rfl, rfl, rfl⟩

end Sys2Proof.Machine
end

