-- ==== Sys2Proof/Laws/Requests.lean ====
section
/-! SUPPORT. What the arrival of a frame and a request can do, said once. -/

namespace Sys2Proof.Machine

/-- What the end of a frame on a link comes to (R151, R156). -/
theorem frameEnds_cases (l : LinkId) (n : Nat) (s : State) :
    (frameEnds l n s = .gone s ∧ Config.responseLimit ≤ (s.link l).queue.length) ∨
    (frameEnds l n s = .gone (s.send l frameBadAnswer) ∧ (s.link l).queue.length < Config.responseLimit ∧
      largestBody l < n) ∨
    (frameEnds l n s = .taken s ∧ (s.link l).queue.length < Config.responseLimit ∧ n ≤ largestBody l) := by
  by_cases hf : Config.responseLimit ≤ (s.link l).queue.length
  · exact Or.inl ⟨by simp [frameEnds, Link.full, hf], hf⟩
  · by_cases hb : largestBody l < n
    · exact Or.inr (Or.inl ⟨by simp [frameEnds, Link.full, hf, hb], by omega, hb⟩)
    · exact Or.inr (Or.inr ⟨by simp [frameEnds, Link.full, hf, hb], by omega, by omega⟩)

/-- A frame on a link that hears it is taken, and nothing else has changed. -/
theorem frameArrives_of_hears {s : State} {l : LinkId} {n : Nat} {body : List Byte} (h : s.Hears l n)
    (hb : body.length = n + 2) : frameArrives l body s = .taken s := by
  have hp := h.powered
  have hr := h.room
  have hf := h.fits
  simp [frameArrives, frameEnds, State.awake, h.hunting, Link.full, hp, hb, Nat.not_le.mpr hr, Nat.not_lt.mpr hf]

/-- No frame is taken without supply or with RESET held (R171). -/
theorem frameArrives_asleep {s : State} (l : LinkId) (body : List Byte) (h : s.supply ≠ .on) :
    frameArrives l body s = .gone s := by
  simp [frameArrives, State.awake, h]

/-- No frame is taken while the line is in break (R158). -/
theorem frameArrives_inBreak {s : State} (l : LinkId) (body : List Byte) (h : (s.link l).receiver = .inBreak) :
    frameArrives l body s = .gone s := by
  simp [frameArrives, h]

/-- The state in which a frame comes to its end: as it stands on a link that hunts, with the receiver free where the frame
was in progress, with the frame in progress cut otherwise. -/
def EndsFrom (s : State) (l : LinkId) (b : State) : Prop :=
  b = s ∨ b = s.freeReceiver l ∨ b = s.cutFrame l

/-- Everything the arrival of a frame can come to: it is gone, with at most one FRAME_BAD for itself; or it is taken on a
link that hears it. -/
theorem frameArrives_cases (l : LinkId) (body : List Byte) (s : State) :
    (∃ s', frameArrives l body s = .gone s' ∧
      (EndsFrom s l s' ∨
        (∃ b, EndsFrom s l b ∧ s' = b.send l frameBadAnswer ∧ (b.link l).queue.length < Config.responseLimit))) ∨
    (∃ s', frameArrives l body s = .taken s' ∧ EndsFrom s l s' ∧ s'.supply = .on ∧
      (s'.link l).receiver = .hunting ∧ (s'.link l).queue.length < Config.responseLimit ∧
      body.length ≤ largestBody l) := by
  by_cases hp : s.supply = .on
  · have ends : ∀ b, EndsFrom s l b → b.supply = .on → (b.link l).receiver = .hunting →
        frameArrives l body s = frameEnds l body.length b → (∃ s', frameArrives l body s = .gone s' ∧
      (EndsFrom s l s' ∨
        (∃ b, EndsFrom s l b ∧ s' = b.send l frameBadAnswer ∧ (b.link l).queue.length < Config.responseLimit))) ∨
    (∃ s', frameArrives l body s = .taken s' ∧ EndsFrom s l s' ∧ s'.supply = .on ∧
      (s'.link l).receiver = .hunting ∧ (s'.link l).queue.length < Config.responseLimit ∧
      body.length ≤ largestBody l) := by
      intro b hb hon hh he
      rcases frameEnds_cases l body.length b with ⟨e, -⟩ | ⟨e, hq, -⟩ | ⟨e, hq, hl⟩
      · exact Or.inl ⟨b, he.trans e, Or.inl hb⟩
      · exact Or.inl ⟨_, he.trans e, Or.inr ⟨b, hb, rfl, hq⟩⟩
      · exact Or.inr ⟨b, he.trans e, hb, hon, hh, hq, hl⟩
    cases hr : (s.link l).receiver with
    | inBreak => exact Or.inl ⟨s, frameArrives_inBreak l body hr, Or.inl (Or.inl rfl)⟩
    | hunting => exact ends s (Or.inl rfl) hp hr (by simp [frameArrives, State.awake, hp, hr])
    | receiving taken esc =>
      cases hc : (s.link l).receiver.begins body with
      | true =>
        refine ends (s.freeReceiver l) (Or.inr (Or.inl rfl)) (by simpa [State.freeReceiver] using hp)
          (by simp [State.freeReceiver]) ?_
        rw [hr] at hc
        simp [frameArrives, State.awake, hp, hr, hc]
      | false =>
        refine ends (s.cutFrame l) (Or.inr (Or.inr rfl)) (by simpa [State.cutFrame] using hp)
          (by simp [State.cutFrame]) ?_
        rw [hr] at hc
        simp [frameArrives, State.awake, hp, hr, hc]
  · exact Or.inl ⟨s, frameArrives_asleep l body hp, Or.inl (Or.inl rfl)⟩

/-- A request that a link hears, of a ring that may send it, with a payload of its length, is acted on. -/
theorem request_taken {α : Type} {kind : Byte} {ring : Nat} {parse : List Byte → Option α} {spoil : State → State} {l : LinkId}
    {corr : Byte} {p : List Byte} {act : α → State → State} {s : State} {a : α}
    (h : s.Hears l p.length) (hr : linkRing l ≤ ring) (hp : parse p = some a) :
    request kind ring parse spoil l corr p act s = act a s := by
  simp [request, frameArrives_of_hears h (body := kind :: corr :: p) rfl, Nat.not_lt.mpr hr, hp]

/-- A request from a link whose ring is too high is refused PRIVILEGE (R155). -/
theorem request_privilege {α : Type} {kind : Byte} {ring : Nat} {parse : List Byte → Option α} {spoil : State → State} {l : LinkId}
    {corr : Byte} {p : List Byte} {act : α → State → State} {s : State}
    (h : s.Hears l p.length) (hr : ring < linkRing l) :
    request kind ring parse spoil l corr p act s = s.answer l corr .privilege := by
  simp [request, frameArrives_of_hears h (body := kind :: corr :: p) rfl, hr]

/-- A request with a payload of another length is refused BAD_PARAMETER (R154, R174). -/
theorem request_badLength {α : Type} {kind : Byte} {ring : Nat} {parse : List Byte → Option α} {spoil : State → State} {l : LinkId}
    {corr : Byte} {p : List Byte} {act : α → State → State} {s : State}
    (h : s.Hears l p.length) (hr : linkRing l ≤ ring) (hp : parse p = none) :
    request kind ring parse spoil l corr p act s = (spoil s).answer l corr .badParameter := by
  simp [request, frameArrives_of_hears h (body := kind :: corr :: p) rfl, Nat.not_lt.mpr hr, hp]

/-- What a request keeps: a property that the end of a frame in progress, FRAME_BAD, a refusal, the spoiling and the
command's own act keep is kept by the request. -/
theorem request_keeps {α : Type} {kind : Byte} {ring : Nat} {parse : List Byte → Option α} {spoil : State → State} {l : LinkId}
    {corr : Byte} {p : List Byte} {act : α → State → State} {s : State} (P : State → Prop) (h0 : P s)
    (hfree : P s → P (s.freeReceiver l)) (hcut : P s → P (s.cutFrame l))
    (hbad : ∀ b, P b → (b.link l).queue.length < Config.responseLimit → P (b.send l frameBadAnswer))
    (hans : ∀ b code, P b → (b.link l).queue.length < Config.responseLimit → P (b.answer l corr code))
    (hspoil : ∀ b, P b → (b.link l).queue.length < Config.responseLimit → P ((spoil b).answer l corr .badParameter))
    (hact : ∀ a b, parse p = some a → linkRing l ≤ ring → P b → b.supply = .on → (b.link l).receiver = .hunting →
      (b.link l).queue.length < Config.responseLimit → P (act a b)) :
    P (request kind ring parse spoil l corr p act s) := by
  unfold request
  rcases frameArrives_cases l (kind :: corr :: p) s with ⟨s', he, hs'⟩ | ⟨s', he, hs', hon, hh, hq, -⟩
  · rw [he]
    rcases hs' with (rfl | rfl | rfl) | ⟨b, (rfl | rfl | rfl), rfl, hl⟩
    · exact h0
    · exact hfree h0
    · exact hcut h0
    · exact hbad _ h0 hl
    · exact hbad _ (hfree h0) hl
    · exact hbad _ (hcut h0) hl
  · rw [he]
    have hP : P s' := by
      rcases hs' with rfl | rfl | rfl
      · exact h0
      · exact hfree h0
      · exact hcut h0
    dsimp only
    split
    · exact hans s' _ hP hq
    · next hr =>
      split
      · exact hspoil s' hP hq
      · next a ha => exact hact a s' ha (by omega) hP hon hh hq

/-- What a lane's request keeps. -/
theorem laneRequest_keeps {kind : Byte} {l : LinkId} {corr : Byte} {p : List Byte} {act : LaneNo → State → State} {s : State}
    (P : State → Prop) (h0 : P s) (hfree : P s → P (s.freeReceiver l)) (hcut : P s → P (s.cutFrame l))
    (hbad : ∀ b, P b → (b.link l).queue.length < Config.responseLimit → P (b.send l frameBadAnswer))
    (hans : ∀ b code, P b → (b.link l).queue.length < Config.responseLimit → P (b.answer l corr code))
    (hact : ∀ i b, l = .lane i → P b → b.supply = .on → (b.link l).receiver = .hunting →
      (b.link l).queue.length < Config.responseLimit → P (act i b)) :
    P (laneRequest kind l corr p act s) := by
  unfold laneRequest
  rcases frameArrives_cases l (kind :: corr :: p) s with ⟨s', he, hs'⟩ | ⟨s', he, hs', hon, hh, hq, -⟩
  · rw [he]
    rcases hs' with (rfl | rfl | rfl) | ⟨b, (rfl | rfl | rfl), rfl, hl⟩
    · exact h0
    · exact hfree h0
    · exact hcut h0
    · exact hbad _ h0 hl
    · exact hbad _ (hfree h0) hl
    · exact hbad _ (hcut h0) hl
  · rw [he]
    have hP : P s' := by
      rcases hs' with rfl | rfl | rfl
      · exact h0
      · exact hfree h0
      · exact hcut h0
    dsimp only
    cases l with
    | lane i => exact hact i s' rfl hP hon hh hq
    | dispatch => exact hans s' _ hP hq
    | service => exact hans s' _ hP hq

/-- A lane's request that its link hears is acted on. -/
theorem laneRequest_taken {kind : Byte} {i : LaneNo} {corr : Byte} {p : List Byte} {act : LaneNo → State → State} {s : State}
    (h : s.Hears (.lane i) p.length) : laneRequest kind (.lane i) corr p act s = act i s := by
  simp [laneRequest, frameArrives_of_hears h (body := kind :: corr :: p) rfl]

/-! ### Readings of small operands -/

theorem indexOf_val {n : Nat} (b : Byte) (i : Fin n) (h : b.toNat = i.val) : indexOf n b = some i := by
  simp [indexOf, h]

theorem indexOf_none {n : Nat} (b : Byte) (h : n ≤ b.toNat) : indexOf n b = none := by
  simp [indexOf, Nat.not_lt.mpr h]

/-- A route command that its checks let through acts on its route (R116). -/
theorem onRoute_taken {l : LinkId} {corr b : Byte} {act : RouteNo → RouteConfig → State → State} {s : State}
    {r : RouteNo} {c : RouteConfig} (hp : s.status.part = .running) (hb : b.toNat = r.val) (hc : s.config r = some c) :
    onRoute l corr b act s = act r c s := by
  simp [onRoute, hp, indexOf_val b r hb, hc]

/-- A route number above 3 is refused BAD_PARAMETER (R116). -/
theorem onRoute_range {l : LinkId} {corr b : Byte} {act : RouteNo → RouteConfig → State → State} {s : State}
    (hp : s.status.part = .running) (hb : 4 ≤ b.toNat) : onRoute l corr b act s = s.answer l corr .badParameter := by
  simp [onRoute, hp, indexOf_none b hb]

/-- A route that is not defined is refused ROUTE_UNDEFINED (R116). -/
theorem onRoute_undefined {l : LinkId} {corr b : Byte} {act : RouteNo → RouteConfig → State → State} {s : State}
    {r : RouteNo} (hp : s.status.part = .running) (hb : b.toNat = r.val) (hd : s.defined r = false) :
    onRoute l corr b act s = s.answer l corr .routeUndefined := by
  have hc : s.config r = none := by simpa [State.defined] using hd
  simp [onRoute, hp, indexOf_val b r hb, hc]

/-- A terminal command that its checks let through acts on its entry (R3). -/
theorem onTerminal_taken {α : Type} {l : LinkId} {corr b : Byte} {a : α} {act : TerminalNo → α → State → State}
    {s : State} {t : TerminalNo} (hp : s.status.part = .running) (hb : b.toNat = t.val) :
    onTerminal l corr b (some a) act s = act t a s := by
  simp [onTerminal, hp, indexOf_val b t hb]

/-- A terminal number above 63 is refused TERMINAL_RANGE (R3). -/
theorem onTerminal_range {α : Type} {l : LinkId} {corr b : Byte} {fields : Option α} {act : TerminalNo → α → State → State}
    {s : State} (hp : s.status.part = .running) (hb : 64 ≤ b.toNat) :
    onTerminal l corr b fields act s = s.answer l corr .terminalRange := by
  simp [onTerminal, hp, indexOf_none b hb]

/-- A field out of range is refused BAD_PARAMETER (R3). -/
theorem onTerminal_fields {α : Type} {l : LinkId} {corr b : Byte} {act : TerminalNo → α → State → State} {s : State}
    (hp : s.status.part = .running) (hb : b.toNat < 64) :
    onTerminal l corr b none act s = s.answer l corr .badParameter := by
  simp [onTerminal, hp, indexOf_val b ⟨b.toNat, hb⟩ rfl]

end Sys2Proof.Machine
end

