-- ==== Sys2Proof/Laws/Restore.lean ====
section
/-! SUPPORT. The warm restore stage by stage: what its rewinds, the closes due, the families undone and the resumed
procedure each do and leave (R20, R37, R94, R113, R147, R172). -/

namespace Sys2Proof.Machine

/-! ### Folds over the state -/

/-- What every turn of a fold keeps, the fold keeps. -/
theorem foldl_keeps {α : Type} (P : State → Prop) (f : State → α → State)
    (h : ∀ s a, P s → P (f s a)) (xs : List α) (s : State) (hs : P s) : P (xs.foldl f s) := by
  induction xs generalizing s with
  | nil => exact hs
  | cons x xs ih => exact ih _ (h _ _ hs)

/-- In a fold over distinct places a relation that every other place's turn keeps holds but for the one place's turn. -/
theorem foldl_turn {α : Type} [DecidableEq α] (R : State → State → Prop) (P : State → Prop)
    (f : State → α → State) (a : α) (hrefl : ∀ s, R s s) (htrans : ∀ s t u, R s t → R t u → R s u) (hP : ∀ s b, P s → P (f s b))
    (hne : ∀ s b, P s → b ≠ a → R s (f s b)) (xs : List α) (hm : a ∈ xs) (hd : xs.Nodup) (s : State) (hs : P s) :
    ∃ u, P u ∧ R s u ∧ R (f u a) (xs.foldl f s) := by
  have hout : ∀ (ys : List α) (s : State), a ∉ ys → P s → R s (ys.foldl f s) := by
    intro ys
    induction ys with
    | nil => intro s _ _; exact hrefl s
    | cons y ys ih =>
      intro s hn hs
      refine htrans _ _ _ (hne s y hs ?_) (ih _ (fun h => hn (List.mem_cons_of_mem _ h)) (hP _ _ hs))
      rintro rfl; exact hn List.mem_cons_self
  induction xs generalizing s with
  | nil => cases hm
  | cons x xs ih =>
    by_cases hx : x = a
    · subst hx
      exact ⟨s, hs, hrefl s, hout xs _ (List.nodup_cons.mp hd).1 (hP _ _ hs)⟩
    · have hm' : a ∈ xs := by
        rcases List.mem_cons.mp hm with h | h
        · exact absurd h.symm hx
        · exact h
      obtain ⟨u, h1, h2, h3⟩ := ih hm' (List.nodup_cons.mp hd).2 (f s x) (hP _ _ hs)
      exact ⟨u, h1, htrans _ _ _ (hne s x hs hx) h2, h3⟩

/-- A relation that every turn of a fold keeps, the fold keeps. -/
theorem foldl_out {α : Type} (R : State → State → Prop) (f : State → α → State)
    (hrefl : ∀ s, R s s) (htrans : ∀ s t u, R s t → R t u → R s u) (xs : List α)
    (h : ∀ s b, b ∈ xs → R s (f s b)) (s : State) : R s (xs.foldl f s) := by
  induction xs generalizing s with
  | nil => exact hrefl s
  | cons x xs ih => exact htrans _ _ _ (h s x List.mem_cons_self) (ih (fun s b hb => h s b (List.mem_cons_of_mem _ hb)) _)

theorem rewound_rewound (r : Record) : r.rewound.rewound = r.rewound := by
  unfold Record.rewound; split <;> simp_all

/-! ### Rewinds of several routes (R104, R113) -/

/-- Routes rewound one after another. -/
def rewindEach (s : State) (rs : List RouteNo) : State := rs.foldl (fun s r => s.rewind r) s

theorem rewindEach_slotsOf (rs : List RouteNo) (s : State) (q : RouteNo) : (rewindEach s rs).slotsOf q = s.slotsOf q := by
  induction rs generalizing s with
  | nil => rfl
  | cons r rs ih => exact (ih _).trans (rewind_slotsOf _ _ _)

/-- Rewinds of several routes make the OFFERED records of their slots PENDING (R104, R113). -/
theorem rewindEach_at (rs : List RouteNo) (s : State) (n : Nat) :
    (rewindEach s rs).at? n = (s.at? n).map fun rec => if rs.any (fun r => decide (n ∈ s.slotsOf r))
        = true then rec.rewound else rec := by
  induction rs generalizing s with
  | nil => simp [rewindEach]
  | cons r rs ih =>
    have : rewindEach s (r :: rs) = rewindEach (s.rewind r) rs := rfl
    rw [this, ih, rewind_at]
    simp only [rewind_slotsOf, List.any_cons, Option.map_map]
    congr 1
    funext rec
    simp only [Function.comp]
    by_cases h1 : n ∈ s.slotsOf r <;> by_cases h2 : (rs.any fun r => decide (n ∈ s.slotsOf r)) = true <;>
      simp [h1, h2, rewound_rewound]

/-- A record that one rewind has made PENDING was reported by it (R104). -/
theorem offeredIn_rewind (s : State) (r : RouteNo) (ns : List Nat) (tn : TerminalNo) (id : Identity) :
    (offeredIn s.qm.slots (s.slotsOf r) tn id || offeredIn (s.rewind r).qm.slots ns tn id) =
    (offeredIn s.qm.slots (s.slotsOf r) tn id || offeredIn s.qm.slots ns tn id) := by
  rw [Bool.eq_iff_iff]
  simp only [Bool.or_eq_true]
  constructor
  · rintro (h | h)
    · exact Or.inl h
    · right
      unfold offeredIn at h ⊢
      obtain ⟨n, hn, h⟩ := List.any_eq_true.mp h
      refine List.any_eq_true.mpr ⟨n, hn, ?_⟩
      have := rewind_at s r n
      unfold State.at? at this
      rw [this] at h
      cases hf : Store.find s.qm.slots n with
      | none => rw [hf] at h; simp at h
      | some rec =>
        rw [hf] at h
        dsimp at h ⊢
        split at h
        · unfold Record.rewound at h
          split at h <;> simp_all
        · exact h
  · rintro (h | h)
    · exact Or.inl h
    · unfold offeredIn at h ⊢
      obtain ⟨n, hn, h⟩ := List.any_eq_true.mp h
      by_cases hm : n ∈ s.slotsOf r
      · exact Or.inl (List.any_eq_true.mpr ⟨n, hm, h⟩)
      · right
        refine List.any_eq_true.mpr ⟨n, hn, ?_⟩
        have := rewind_at s r n
        unfold State.at? at this
        rw [this]
        simp only [hm, if_false]
        cases hf : Store.find s.qm.slots n with
        | none => rw [hf] at h; simp at h
        | some rec => rw [hf] at h; exact h

/-- Rewinds of several routes return the history entries of their OFFERED records to PENDING (R17, R20). -/
theorem rewindEach_term (rs : List RouteNo) (s : State) (tn : TerminalNo) :
    (rewindEach s rs).term tn = { s.term tn with history := (s.term tn).history.map fun h =>
      if h.disposition = .offered ∧ (rs.any fun r => offeredIn s.qm.slots (s.slotsOf r) tn h.id) = true then
        { h with disposition := .pending } else h } := by
  induction rs generalizing s with
  | nil => simp [rewindEach]
  | cons r rs ih =>
    have : rewindEach s (r :: rs) = rewindEach (s.rewind r) rs := rfl
    rw [this, ih, rewind_term]
    simp only [rewind_slotsOf, List.any_cons, List.map_map]
    congr 1
    refine List.map_congr_left fun h _ => ?_
    simp only [Function.comp]
    have hany : (offeredIn s.qm.slots (s.slotsOf r)
        tn h.id || rs.any fun q => offeredIn (s.rewind r).qm.slots (s.slotsOf q) tn h.id) =
        (offeredIn s.qm.slots (s.slotsOf r) tn h.id || rs.any fun q => offeredIn s.qm.slots (s.slotsOf q) tn h.id) := by
      clear ih this
      induction rs with
      | nil => rfl
      | cons q qs ih =>
        simp only [List.any_cons]
        rw [← Bool.or_assoc, offeredIn_rewind, Bool.or_assoc, Bool.or_left_comm, ih, Bool.or_left_comm]
    by_cases hd : h.disposition = .offered
    · by_cases h1 : offeredIn s.qm.slots (s.slotsOf r) tn h.id = true
      · simp [hd, h1]
      · simp only [h1, Bool.false_or] at hany
        simp [hd, h1, hany]
    · simp [hd]

theorem rewindEach_queue_out (rs : List RouteNo) (s : State) (r : RouteNo) (h : r ∉ rs)
    : (rewindEach s rs).queue r = s.queue r := by
  induction rs generalizing s with
  | nil => rfl
  | cons q rs ih =>
    have : rewindEach s (q :: rs) = rewindEach (s.rewind q) rs := rfl
    rw [this, ih _ (fun hm => h (List.mem_cons_of_mem _ hm)), rewind_queue_ne]
    rintro rfl; exact h List.mem_cons_self

theorem rewindEach_stable (rs : List RouteNo) (s : State) (n : Nat) (hno : ∀ rec, s.at? n = some rec →
    rec.state ≠ .offered) :
    (rewindEach s rs).at? n = s.at? n := by
  rw [rewindEach_at]
  cases hf : s.at? n with
  | none => rfl
  | some rec => simp [Record.rewound, hno rec hf]

/-- A route among those rewound has its queue state rewound against the slots as the last rewind leaves them (R104). -/
theorem rewindEach_queue_in (rs : List RouteNo) (s : State) (r : RouteNo) (h : r ∈ rs) (hd : rs.Nodup) :
    (rewindEach s rs).queue r = (s.queue r).rewound r (s.storePlace r) (rewindEach s rs).qm.slots := by
  induction rs generalizing s with
  | nil => exact absurd h List.not_mem_nil
  | cons q rs ih =>
    have e : rewindEach s (q :: rs) = rewindEach (s.rewind q) rs := rfl
    rw [e]
    by_cases hq : q = r
    · subst hq
      rw [rewindEach_queue_out _ _ _ (List.nodup_cons.mp hd).1, rewind_queue_self]
      have hst : ∀ n ∈ s.slotsOf q,
        Store.find (s.rewind q).qm.slots n = Store.find (rewindEach (s.rewind q) rs).qm.slots n := by
        intro n hn
        exact (rewindEach_stable rs (s.rewind q) n (fun _ => rewind_none_offered s q hn)).symm
      unfold RouteQueue.rewound RouteQueue.seek
      dsimp only
      rw [seekOffer_congr (s.queue q).live _ _ _ fun x h1 h2 => hst _ (live_mem_slotsOf s q h1 h2),
        seekOffer_congr (s.queue q).store _ _ _ fun x h1 h2 => hst _ (store_mem_slotsOf s q h1 h2)]
    · have hr : r ∈ rs := by
        rcases List.mem_cons.mp h with h | h
        · exact absurd h.symm hq
        · exact h
      rw [ih _ hr (List.nodup_cons.mp hd).2, rewind_queue_ne s hq]
      rfl

theorem rewindEach_poolFree (rs : List RouteNo) (s : State) : (rewindEach s rs).qm.poolFree = s.qm.poolFree := by
  induction rs generalizing s with
  | nil => rfl
  | cons r rs ih => exact (ih _).trans rfl

theorem rewindEach_kept (rs : List RouteNo) (s : State) : (rewindEach s rs).accounts = s.accounts ∧
    (rewindEach s rs).engine = s.engine ∧ (rewindEach s rs).cutover = s.cutover ∧
    (rewindEach s rs).status = s.status ∧ (rewindEach s rs).keys = s.keys := by
  induction rs generalizing s with
  | nil => exact ⟨rfl, rfl, rfl, rfl, rfl⟩
  | cons r rs ih => exact ih _

/-! ### What a restore leaves of the records (R94, R113) -/

/-- The record store, the free list, the rings and the configuration are the same. -/
structure StoreKept (s t : State) : Prop where
  slots : t.qm.slots = s.qm.slots
  free : t.qm.poolFree = s.qm.poolFree
  queues : ∀ r, (t.queue r).live = (s.queue r).live ∧ (t.queue r).store = (s.queue r).store ∧
      (t.queue r).overflow = (s.queue r).overflow
  config : t.status.config = s.status.config

theorem StoreKept.refl (s : State) : StoreKept s s := ⟨rfl, rfl, fun _ => ⟨rfl, rfl, rfl⟩, rfl⟩

theorem StoreKept.trans {s t u : State} (h : StoreKept s t) (k : StoreKept t u) : StoreKept s u :=
  ⟨k.slots.trans h.slots, k.free.trans h.free, fun r => ⟨(k.queues r).1.trans (h.queues r).1,
      (k.queues r).2.1.trans (h.queues r).2.1, (k.queues r).2.2.trans (h.queues r).2.2⟩, k.config.trans h.config⟩

theorem performClose_store (s : State) (r : RouteNo) (why : CloseReason) : StoreKept s (s.performClose r why) := by
  refine ⟨rfl, rfl, fun q => ?_, rfl⟩
  by_cases h : r = q
  · subst h; simp [State.performClose, State.queue, RouteQueue.afterClose]
  · simp [State.performClose, State.queue, h]

theorem setQueue_store (s : State) (r : RouteNo) (q : RouteQueue) (h : q.live = (s.queue r).live ∧
    q.store = (s.queue r).store ∧ q.overflow = (s.queue r).overflow) :
    StoreKept s (s.setQueue r q) := by
  refine ⟨rfl, rfl, fun x => ?_, rfl⟩
  by_cases e : r = x
  · subst e; simpa [State.queue] using h
  · simp [State.queue, e]

theorem status_store (s t : State) (hq : t.qm = s.qm) (hc : t.status.config = s.status.config) : StoreKept s t := by
  refine ⟨by rw [hq], by rw [hq], fun x => ?_, hc⟩
  simp [State.queue, hq]

theorem deferClose_store (s : State) (r : RouteNo) (why : CloseReason) : StoreKept s (s.deferClose r why) := by
  have h := setQueue_store s r { s.queue r with pending := some ⟨why, .buffer, true⟩ } ⟨rfl, rfl, rfl⟩
  refine h.trans ?_
  unfold State.deferClose
  exact status_store _ _ rfl rfl

theorem requestClose_store (s : State) (r : RouteNo) (why : CloseReason) : StoreKept s (s.requestClose r why).1 := by
  rcases requestClose_cases s r why with ⟨p, _, e⟩ | ⟨_, _, e⟩ | ⟨_, _, _, e⟩ | ⟨_, _, _, e⟩ <;> rw [e]
  · exact StoreKept.refl s
  · exact deferClose_store s r why
  · exact setQueue_store s r _ ⟨rfl, rfl, rfl⟩
  · exact performClose_store s r why

theorem settleWaiting_store (s : State) (r : RouteNo) : StoreKept s (s.settleWaiting r) := by
  rcases settleWaiting_cases s r with e | ⟨p, _, _, e⟩ <;> rw [e]
  · exact StoreKept.refl s
  · exact performClose_store s r _

theorem settleAll_store (s : State) : StoreKept s s.settleAll :=
  foldl_keeps (StoreKept s) _ (fun t r h => h.trans (settleWaiting_store t r)) _ _ (StoreKept.refl s)

theorem undoFamily_store (s : State) (f : FamilyNo) : StoreKept s (s.undoFamily f) := by
  unfold State.undoFamily
  dsimp only
  split
  · exact StoreKept.refl s
  · exact status_store _ _ rfl rfl
  · exact status_store _ _ rfl rfl

theorem undoAll_store (s : State) : StoreKept s s.undoAll :=
  foldl_keeps (StoreKept s) _ (fun t r h => h.trans (undoFamily_store t r)) _ _ (StoreKept.refl s)

theorem askClose_store (s : State) (r : RouteNo) : StoreKept s (s.askClose r) := by
  unfold State.askClose
  split
  · exact requestClose_store _ _ _
  · exact StoreKept.refl s

theorem rollWhole_store (s : State) (f : FamilyNo) : StoreKept s (s.rollWhole f) := by
  unfold State.rollWhole
  dsimp only
  split
  · split
    · exact status_store _ _ rfl rfl
    · exact status_store _ _ rfl rfl
  · exact StoreKept.refl s

/-- A resumed procedure leaves records, free list and rings as they are (R147). -/
theorem resume_store (s : State) : StoreKept s s.resume := by
  have hc : ∀ u : State, StoreKept u u.resumeClosing := by
    intro u
    unfold State.resumeClosing
    split
    · exact foldl_keeps (StoreKept u) _ (fun t r h => h.trans (askClose_store t r)) _ _ (StoreKept.refl u)
    · exact StoreKept.refl u
  have hr : ∀ u : State, StoreKept u u.resumeRolling := by
    intro u
    unfold State.resumeRolling
    split
    · exact foldl_keeps (StoreKept u) _ (fun t r h => h.trans (rollWhole_store t r)) _ _ (StoreKept.refl u)
    · exact StoreKept.refl u
  unfold State.resume
  split
  · exact StoreKept.refl s
  · exact (hr s).trans (status_store _ _ rfl rfl)
  · exact ((hc s).trans (hr _)).trans (status_store _ _ rfl rfl)

/-- The part at a warm restore before its rewinds (R172 steps 1 and 2). -/
def restoreStart (s : State) (straps : BitVec 6) : State :=
  ({ s.lapse with
      supply := .on
      links := startLinks s.links straps
      cutover := s.cutover.lapse.withoutNear } : State).restoreStatus.abandonWrap

theorem warmRestore_eq (s : State) (straps : BitVec 6) : s.warmRestore straps =
    ((rewindEach (restoreStart s straps) (List.finRange 4)).settleAll.undoAll.restoreDispatch.releaseAll).resume := rfl

/-- After its rewinds a warm restore touches no record, no free slot and no ring (R113, R172). -/
theorem warmRestore_store (s : State) (straps : BitVec 6) :
    StoreKept (rewindEach (restoreStart s straps) (List.finRange 4)) (s.warmRestore straps) := by
  rw [warmRestore_eq]
  generalize rewindEach (restoreStart s straps) (List.finRange 4) = u
  have h3 : StoreKept u.settleAll.undoAll u.settleAll.undoAll.restoreDispatch.releaseAll := by
    generalize u.settleAll.undoAll = v
    exact status_store _ _ rfl rfl
  exact (((settleAll_store u).trans (undoAll_store _)).trans h3).trans (resume_store _)

theorem restoreStart_config (s : State) (straps) : (restoreStart s straps).status.config = s.status.config := by
  simp only [restoreStart, State.abandonWrap, State.restoreStatus, StatusUnit.raise, StatusUnit.abandoned,
      State.lapse, StatusUnit.lapse]
  by_cases h : s.status.part = .setup <;> simp [h]

theorem restoreStart_slotsOf (s : State) (straps) (r : RouteNo) : (restoreStart s straps).slotsOf r = s.slotsOf r := by
  unfold State.slotsOf State.storePlace
  rw [restoreStart_config]
  rfl

/-- The reserved pool slot of the abandoned wrap is at the back of the free list (R94, R97). -/
theorem restoreStart_poolFree (s : State) (straps)
    : (restoreStart s straps).qm.poolFree = s.qm.poolFree ++ s.engine.releasedSlots := by
  simp only [restoreStart, State.abandonWrap, State.restoreStatus, State.lapse]
  rcases s.engine with _ | ⟨⟨a, b, c, d⟩, w⟩ | ⟨a, b, c, d⟩
  · rfl
  · cases c <;> rfl
  · rfl

/-! ### A route at a restore (R113, R144) -/

/-- A route's queue state and account are the same. -/
def RouteSame (r : RouteNo) (s t : State) : Prop :=
  t.queue r = s.queue r ∧ t.account r = s.account r

theorem RouteSame.refl (r) (s : State) : RouteSame r s s := ⟨rfl, rfl⟩

theorem RouteSame.trans (r) (s t u : State) (h : RouteSame r s t) (k : RouteSame r t u) : RouteSame r s u :=
  ⟨k.1.trans h.1, k.2.trans h.2⟩

/-- The engine is IDLE, with a clock and a configuration. -/
def IdleAt (c : ClockTime) (cfg : Vector (Option RouteConfig) 4) (s : State) : Prop := s.engine = .idle ∧
    s.cutover.clock = c ∧ s.status.config = cfg

theorem performClose_ne (s : State) {r q : RouteNo} (why) (h : q ≠ r) : RouteSame r s (s.performClose q why) := by
  constructor
  · simp [State.performClose, State.queue, h]
  · simp [State.performClose, State.account, h]

theorem settleWaiting_ne (s : State) {r q : RouteNo} (h : q ≠ r) : RouteSame r s (s.settleWaiting q) := by
  rcases settleWaiting_cases s q with e | ⟨p, _, _, e⟩ <;> rw [e]
  · exact RouteSame.refl r s
  · exact performClose_ne s _ h

theorem settleWaiting_idleAt (c cfg) (s : State) (q : RouteNo) (hs : IdleAt c cfg s)
    : IdleAt c cfg (s.settleWaiting q) := by
  rcases settleWaiting_cases s q with e | ⟨p, _, _, e⟩ <;> rw [e] <;> exact hs

theorem askClose_ne (s : State) {r q : RouteNo} (h : q ≠ r) : RouteSame r s (s.askClose q) := by
  unfold State.askClose
  split
  · rcases requestClose_cases s q .scheduled with ⟨p, _, e⟩ | ⟨_, _, e⟩ | ⟨_, _, _, e⟩ | ⟨_, _, _, e⟩ <;> rw [e]
    · exact RouteSame.refl r s
    · exact ⟨by simp [State.deferClose, State.queue, h], by simp [State.deferClose, State.account]⟩
    · exact ⟨by simp [State.queue, h], rfl⟩
    · exact performClose_ne s _ h
  · exact RouteSame.refl r s

theorem askClose_idleAt (c cfg) (s : State) (q : RouteNo) (hs : IdleAt c cfg s) : IdleAt c cfg (s.askClose q) := by
  unfold State.askClose
  split
  · rcases requestClose_cases s q .scheduled with ⟨p, _, e⟩ | ⟨_, _, e⟩ | ⟨_, _, _, e⟩ | ⟨_, _, _,
      e⟩ <;> rw [e] <;> exact hs
  · exact hs

theorem undoFamily_route (s : State) (f) (r : RouteNo) : RouteSame r s (s.undoFamily f) := by
  unfold State.undoFamily; dsimp only; split <;> exact ⟨rfl, rfl⟩

theorem undoAll_route (s : State) (r : RouteNo) : RouteSame r s s.undoAll :=
  foldl_keeps (RouteSame r s) _ (fun t f h => h.trans _ _ _ _ (undoFamily_route t f r)) _ _ (RouteSame.refl r s)

theorem rollWhole_route (s : State) (f) (r : RouteNo) : RouteSame r s (s.rollWhole f) := by
  unfold State.rollWhole; dsimp only; split
  · split <;> exact ⟨rfl, rfl⟩
  · exact ⟨rfl, rfl⟩

theorem resumeRolling_route (s : State) (r : RouteNo) : RouteSame r s s.resumeRolling := by
  unfold State.resumeRolling; split
  · exact foldl_keeps (RouteSame r s) _ (fun t f h => h.trans _ _ _ _ (rollWhole_route t f r)) _ _ (RouteSame.refl r s)
  · exact RouteSame.refl r s

/-- The part at a warm restore before a procedure is resumed (R172 steps 1 to 6). -/
def restoreMid (s : State) (straps : BitVec 6) : State :=
  (rewindEach (restoreStart s straps) (List.finRange 4)).settleAll.undoAll.restoreDispatch.releaseAll

theorem warmRestore_mid (s : State) (straps) : s.warmRestore straps = (restoreMid s straps).resume := rfl

theorem restoreStart_idleAt (s : State) (straps) : IdleAt s.time s.status.config (rewindEach (restoreStart s straps)
    (List.finRange 4)) := by
  obtain ⟨_, h2, h3, h4, _⟩ := rewindEach_kept (List.finRange 4) (restoreStart s straps)
  exact ⟨h2.trans rfl, by rw [h3]; rfl, by rw [h4, restoreStart_config]⟩

theorem settleAll_idleAt (c cfg) (s : State) (hs : IdleAt c cfg s) : IdleAt c cfg s.settleAll :=
  foldl_keeps (IdleAt c cfg) _ (fun t q h => settleWaiting_idleAt c cfg t q h) _ _ hs

theorem undoFamily_idleAt (c cfg) (s : State) (f) (hs : IdleAt c cfg s) : IdleAt c cfg (s.undoFamily f) := by
  unfold State.undoFamily; dsimp only; split <;> exact hs

theorem undoAll_idleAt (c cfg) (s : State) (hs : IdleAt c cfg s) : IdleAt c cfg s.undoAll :=
  foldl_keeps (IdleAt c cfg) _ (fun t q h => undoFamily_idleAt c cfg t q h) _ _ hs

/-- Before a procedure is resumed the engine is IDLE, the clock and the configuration as they were (R113). -/
theorem restoreMid_idleAt (s straps) : IdleAt s.time s.status.config (restoreMid s straps) := by
  have := undoAll_idleAt _ _ _ (settleAll_idleAt _ _ _ (restoreStart_idleAt s straps))
  unfold restoreMid
  revert this
  generalize (rewindEach (restoreStart s straps) (List.finRange 4)).settleAll.undoAll = v
  exact fun h => h

theorem restoreStart_queue (s : State) (straps) (r) : (rewindEach (restoreStart s straps) (List.finRange 4)).queue r =
   (s.queue r).rewound r (s.storePlace r) (rewindEach (restoreStart s straps) (List.finRange 4)).qm.slots := by
  have hp : (restoreStart s straps).storePlace r = s.storePlace r := by unfold State.storePlace; rw [restoreStart_config]
  rw [rewindEach_queue_in _ _ r (List.mem_finRange r) (List.nodup_finRange 4), hp]
  rfl

theorem restoreStart_account (s : State) (straps) (r) : (rewindEach (restoreStart s straps)
    (List.finRange 4)).account r = s.account r := by
  unfold State.account
  rw [(rewindEach_kept _ _).1]
  rfl

/-- Before a procedure is resumed a route is as its rewind and the close due on its abandoned wrap leave it (R113). -/
theorem restoreMid_turn (s : State) (straps) (r : RouteNo) : ∃ u : State, u.engine = .idle ∧ u.time = s.time ∧
    u.queue r = (s.queue r).rewound r (s.storePlace r) (rewindEach (restoreStart s straps)
        (List.finRange 4)).qm.slots ∧ u.account r = s.account r ∧
    RouteSame r (u.settleWaiting r) (restoreMid s straps) := by
  obtain ⟨u, hu, h1, h2⟩ := foldl_turn (RouteSame r) (IdleAt s.time s.status.config) (fun s q => s.settleWaiting q)
      r (RouteSame.refl r) (RouteSame.trans r)
    (fun s b h => settleWaiting_idleAt _ _ s b h) (fun s b _ h => settleWaiting_ne s h) (List.finRange 4)
        (List.mem_finRange r) (List.nodup_finRange 4)
    (rewindEach (restoreStart s straps) (List.finRange 4)) (restoreStart_idleAt s straps)
  refine ⟨u, hu.1, hu.2.1, by rw [h1.1, restoreStart_queue], by rw [h1.2, restoreStart_account], ?_⟩
  unfold restoreMid
  refine RouteSame.trans r _ _ _ h2 ?_
  show RouteSame r (rewindEach (restoreStart s straps) (List.finRange 4)).settleAll _
  generalize (rewindEach (restoreStart s straps) (List.finRange 4)).settleAll = v
  refine RouteSame.trans r _ _ _ (undoAll_route v r) ?_
  generalize v.undoAll = w
  exact ⟨rfl, rfl⟩

/-- A terminal entry after the rewinds of a restore: the history entries of its OFFERED records are PENDING (R20). -/
def restoredEntry (s : State) (n : TerminalNo) : Terminal :=
  { s.term n with history := (s.term n).history.map fun h =>
      if h.disposition = .offered ∧ ((List.finRange 4).any fun r => offeredIn s.qm.slots (s.slotsOf r) n h.id) = true then
        { h with disposition := .pending }
      else h }

theorem restoredEntry_route (s : State) (n : TerminalNo) : (restoredEntry s n).route = (s.term n).route := rfl

theorem restoreStart_term (s : State) (straps) (n) : (rewindEach (restoreStart s straps)
    (List.finRange 4)).term n = restoredEntry s n := by
  rw [rewindEach_term]
  unfold restoredEntry
  simp only [restoreStart_slotsOf]
  rfl

/-! ### A terminal entry at a restore (R20) -/

/-- The engine is IDLE, and an entry is on a route or VACANT. -/
def TermAt (r : RouteNo) (n : TerminalNo) (s : State) : Prop := s.engine = .idle ∧
    ((s.term n).route = r ∨ s.term n = Terminal.vacant)

theorem settleWaiting_term_ne (s : State) (r q : RouteNo) (n) (h : TermAt r n s) (hq : q ≠ r)
    : (s.settleWaiting q).term n = s.term n := by
  rcases settleWaiting_cases s q with e | ⟨p, _, _, e⟩ <;> rw [e]
  rw [performClose_term, h.1]
  rcases h.2 with h2 | h2
  · rw [if_neg]; rw [h2]; exact fun e => hq e.symm
  · rw [h2]
    split
    · exact release_vacant _ _
    · rfl

theorem settleWaiting_termAt (s : State) (r q : RouteNo) (n) (h : TermAt r n s) : TermAt r n (s.settleWaiting q) := by
  rcases settleWaiting_cases s q with e | ⟨p, _, _, e⟩ <;> rw [e]
  · exact h
  · refine ⟨h.1, ?_⟩
    rw [performClose_term, h.1]
    split
    · rcases release_cases .idle n { s.term n with totals := Totals.zero } with ⟨_, k⟩ | ⟨_, k⟩ <;> rw [k]
      · exact Or.inr rfl
      · rcases h.2 with h2 | h2
        · exact Or.inl h2
        · rw [h2]; exact Or.inr rfl
    · exact h.2

theorem undoFamily_terms (s : State) (f) : (s.undoFamily f).terminals = s.terminals ∧
    (s.undoFamily f).engine = s.engine := by
  unfold State.undoFamily; dsimp only; split <;> exact ⟨rfl, rfl⟩

theorem undoAll_terms (s : State) : s.undoAll.terminals = s.terminals ∧ s.undoAll.engine = s.engine :=
  foldl_keeps (fun t => t.terminals = s.terminals ∧
      t.engine = s.engine) _ (fun t f h => ⟨(undoFamily_terms t f).1.trans h.1,
      (undoFamily_terms t f).2.trans h.2⟩) _ _ ⟨rfl, rfl⟩

/-- A terminal entry at a restore: rewound, part of the close due on its route, release-tested (R20). -/
theorem restoreMid_term (s : State) (straps) (n) : ∃ u : State, u.engine = .idle ∧ u.term n = restoredEntry s n ∧
    (u.queue (s.term n).route).pending = (s.queue (s.term n).route).pending ∧
    ((u.queue (s.term n).route).buffer = none ↔ (s.queue (s.term n).route).buffer = none) ∧
    (restoreMid s straps).term n = release .idle n ((u.settleWaiting (s.term n).route).term n) := by
  let r := (s.term n).route
  have h0 : TermAt r n (rewindEach (restoreStart s straps) (List.finRange 4)) := ⟨(restoreStart_idleAt s straps).1,
      Or.inl (by rw [restoreStart_term]; rfl)⟩
  obtain ⟨u, hu, h1, h2⟩ := foldl_turn (fun s t => RouteSame r s t ∧
      t.term n = s.term n) (TermAt r n) (fun s q => s.settleWaiting q) r
    (fun s => ⟨RouteSame.refl r s, rfl⟩) (fun s t u a b => ⟨a.1.trans _ _ _ _ b.1, b.2.trans a.2⟩)
    (fun s b h => settleWaiting_termAt s r b n h) (fun s b h hb => ⟨settleWaiting_ne s hb,
        settleWaiting_term_ne s r b n h hb⟩) (List.finRange 4) (List.mem_finRange r) (List.nodup_finRange 4)
    (rewindEach (restoreStart s straps) (List.finRange 4)) h0
  refine ⟨u, hu.1, by rw [h1.2, restoreStart_term], ?_, ?_, ?_⟩
  · rw [h1.1.1, restoreStart_queue]; rfl
  · rw [h1.1.1, restoreStart_queue]
    show (Option.map _ _ = none) ↔ _
    simp; rfl
  · have h3 : (rewindEach (restoreStart s straps)
      (List.finRange 4)).settleAll.term n = (u.settleWaiting r).term n := by unfold State.settleAll; exact h2.2
    have e := settleAll_idleAt _ _ _ (restoreStart_idleAt s straps)
    refine Eq.trans ?_ (congrArg (release .idle n) h3)
    unfold restoreMid
    revert e
    generalize (rewindEach (restoreStart s straps) (List.finRange 4)).settleAll = v
    intro e
    have := undoAll_terms v
    simp only [State.releaseAll, State.restoreDispatch, State.term, Vec.get_gen, this.1, this.2, e.1]

/-! ### The Cut-over Unit and the families at a restore (R37, R147) -/

theorem settleWaiting_stage (s : State) (q) : (s.settleWaiting q).cutover = s.cutover := by
  rcases settleWaiting_cases s q with e | ⟨p, _, _, e⟩ <;> rw [e]; rfl

/-- The stage of the Cut-over Unit. -/
def StageIs (st : CutoverStage) (s : State) : Prop := s.cutover.stage = st

theorem settleAll_stage (st) (s : State) (h : StageIs st s) : StageIs st s.settleAll :=
  foldl_keeps (StageIs st) _ (fun t q h => by unfold StageIs at *; rw [settleWaiting_stage]; exact h) _ _ h

theorem undoFamily_stage (st) (s : State) (f) (h : StageIs st s) : StageIs st (s.undoFamily f) := by
  unfold State.undoFamily; dsimp only; split <;> exact h

theorem undoAll_stage (st) (s : State) (h : StageIs st s) : StageIs st s.undoAll :=
  foldl_keeps (StageIs st) _ (fun t f h => undoFamily_stage st t f h) _ _ h

theorem restoreTail_stage (st) (s : State) (h : StageIs st s) : StageIs st s.restoreDispatch.releaseAll := h

theorem restoreMid_stage (s : State) (straps) (st) (h : s.cutover.stage = st)
    : (restoreMid s straps).cutover.stage = st := by
  have hb : StageIs st (rewindEach (restoreStart s straps) (List.finRange 4)) := by
    unfold StageIs
    rw [(rewindEach_kept _ _).2.2.1]; exact h
  exact restoreTail_stage st _ (undoAll_stage st _ (settleAll_stage st _ hb))

/-- With no procedure under way nothing is resumed (R147). -/
theorem resume_idle (s : State) (h : s.cutover.stage = .idle) : s.resume = s := by
  unfold State.resume; rw [h]

theorem undoFamily_keys_ne (s : State) {f g : FamilyNo} (h : g ≠ f) : (s.undoFamily g).family f = s.family f := by
  unfold State.undoFamily; dsimp only
  split
  · rfl
  · simp [State.family, h]
  · simp [State.family, h]

/-- A family after a restore has undone its operation (R37). -/
def undoneFamily (k : Family) : Family :=
  match k.op with
  | .none => k
  | _ => k.undone

theorem undoFamily_keys_self (s : State) (f : FamilyNo) : (s.undoFamily f).family f = undoneFamily (s.family f) := by
  unfold State.undoFamily undoneFamily; dsimp only
  cases h : (s.family f).op with
  | none => rfl
  | load => simp [State.family]
  | gatewayRoll => simp [State.family]
  | cutoverRoll => simp [State.family]

theorem settleAll_keys (s : State) : s.settleAll.keys = s.keys :=
  foldl_keeps (fun t => t.keys = s.keys) (fun t q => t.settleWaiting q)
      (fun t q h => by rcases settleWaiting_cases t q with e | ⟨p, _, _,
      e⟩ <;> rw [e] <;> exact h) (List.finRange 4) s rfl

theorem settleAll_cutover (s : State) : s.settleAll.cutover = s.cutover :=
  foldl_keeps (fun t => t.cutover = s.cutover) (fun t q => t.settleWaiting q)
      (fun t q h => by rw [settleWaiting_stage]; exact h) (List.finRange 4) s rfl

theorem settleAll_status (s : State) : s.settleAll.status = s.status :=
  foldl_keeps (fun t => t.status = s.status) (fun t q => t.settleWaiting q)
      (fun t q h => by rcases settleWaiting_cases t q with e | ⟨p, _, _,
      e⟩ <;> rw [e] <;> exact h) (List.finRange 4) s rfl

/-- A family is the same. -/
def FamilySame (f : FamilyNo) (s t : State) : Prop := t.family f = s.family f

/-- Every family's operation is undone by its own prior contents (R37). -/
theorem undoAll_family (s : State) (f : FamilyNo) : s.undoAll.family f = undoneFamily (s.family f) := by
  obtain ⟨u, _, h1, h2⟩ := foldl_turn (FamilySame f) (fun _ => True) (fun s f => s.undoFamily f) f (fun _ => rfl)
      (fun _ _ _ a b => b.trans a) (fun _ _ _ => trivial)
    (fun s b _ h => undoFamily_keys_ne s h) (List.finRange 8) (List.mem_finRange f) (List.nodup_finRange 8) s trivial
  have : s.undoAll.family f = (u.undoFamily f).family f := h2
  rw [this, undoFamily_keys_self, h1]

/-- The part at a warm restore before operations on families are undone (R172 steps 1 to 3). -/
def restoreSettled (s : State) (straps : BitVec 6) : State := (rewindEach (restoreStart s straps)
    (List.finRange 4)).settleAll

theorem restoreMid_eq (s straps)
    : restoreMid s straps = (restoreSettled s straps).undoAll.restoreDispatch.releaseAll := rfl

theorem restoreSettled_keys (s straps) : (restoreSettled s straps).keys.families = s.keys.families := by
  unfold restoreSettled; rw [settleAll_keys, (rewindEach_kept _ _).2.2.2.2]; rfl

theorem restoreSettled_family (s straps) (f) : (restoreSettled s straps).family f = s.family f := by
  unfold State.family; rw [restoreSettled_keys]

theorem restoreSettled_nextFamily (s straps) : (restoreSettled s straps).cutover.nextFamily = s.cutover.nextFamily ∧
    (restoreSettled s straps).cutover.nextRoute = s.cutover.nextRoute ∧
    (restoreSettled s straps).cutover.clock = s.cutover.clock := by
  unfold restoreSettled; rw [settleAll_cutover, (rewindEach_kept _ _).2.2.1]; exact ⟨rfl, rfl, rfl⟩

theorem restoreSettled_log (s straps) : (restoreSettled s straps).status.log = [] := by
  unfold restoreSettled; rw [settleAll_status, (rewindEach_kept _ _).2.2.2.1]
  simp only [restoreStart, State.abandonWrap, State.restoreStatus, StatusUnit.raise, StatusUnit.abandoned,
      State.lapse, StatusUnit.lapse]
  by_cases h : s.status.part = .setup <;> simp [h]

theorem restoreTail_keys (s : State) : s.restoreDispatch.releaseAll.keys = s.keys ∧
    s.restoreDispatch.releaseAll.cutover = s.cutover ∧ s.restoreDispatch.releaseAll.status = s.status := ⟨rfl, rfl, rfl⟩

theorem restoreMid_family (s straps f) : (restoreMid s straps).family f = undoneFamily (s.family f) := by
  have h1 : (restoreMid s straps).family f = (restoreSettled s straps).undoAll.family f := by
    unfold State.family; rw [restoreMid_eq, (restoreTail_keys _).1]
  rw [h1, undoAll_family, restoreSettled_family]

/-- The procedure is past a family. -/
def Past (f : FamilyNo) (s : State) : Prop := ∀ g, s.cutover.nextFamily = some g → f < g

theorem undoFamily_past (s : State) {f g : FamilyNo} (h : Past f s) (hg : f < g) : Past f (s.undoFamily g) := by
  unfold State.undoFamily; dsimp only
  split
  · exact h
  · intro x hx
    simp only [familyAfter] at hx
    split at hx
    · cases hx; show f.val < g.val + 1; have : f.val < g.val := hg; omega
    · cases hx
  · exact h

theorem undoEach_past (f : FamilyNo) (xs : List FamilyNo) (hp : xs.Pairwise (· < ·)) (hm : f ∈ xs) (s : State)
    (hop : (s.family f).op = .cutoverRoll) :
    Past f (xs.foldl (fun s f => s.undoFamily f) s) := by
  induction xs generalizing s with
  | nil => cases hm
  | cons x xs ih =>
    rw [List.pairwise_cons] at hp
    by_cases hx : x = f
    · subst hx
      have hpast : Past x (s.undoFamily x) := by
        intro g hg
        simp only [State.undoFamily, hop, familyAfter] at hg
        split at hg
        · cases hg; show x.val < x.val + 1; omega
        · cases hg
      show Past x (xs.foldl _ (s.undoFamily x))
      clear ih hop hm
      generalize s.undoFamily x = t at hpast
      have : ∀ ys : List FamilyNo, (∀ y ∈ ys, x < y) → ∀ t, Past x t →
        Past x (ys.foldl (fun s f => s.undoFamily f) t) := by
        intro ys
        induction ys with
        | nil => intro _ t h; exact h
        | cons y ys ih =>
        intro hy t h
        exact ih (fun z hz => hy z (List.mem_cons_of_mem _ hz)) _ (undoFamily_past t h (hy y List.mem_cons_self))
      exact this xs hp.1 t hpast
    · have hm' : f ∈ xs := by
        rcases List.mem_cons.mp hm with h | h
        · exact absurd h.symm hx
        · exact h
      refine ih hp.2 hm' (s.undoFamily x) ?_
      rw [undoFamily_keys_ne s hx]; exact hop

/-- A family whose cut-over roll is undone counts as done (R147). -/
theorem undoAll_past (s : State) (f) (hop : (s.family f).op = .cutoverRoll) : Past f s.undoAll :=
  undoEach_past f _ (List.pairwise_lt_finRange 8) (List.mem_finRange f) s hop

theorem restoreMid_past (s straps) (f) (hop : (s.family f).op = .cutoverRoll) : Past f (restoreMid s straps) := by
  have h := undoAll_past (restoreSettled s straps) f (by rw [restoreSettled_family]; exact hop)
  unfold Past
  rw [restoreMid_eq, (restoreTail_keys _).2.1]
  exact h

theorem undoFamily_next (s : State) (f) (h : (s.family f).op ≠ .cutoverRoll) : (s.undoFamily f).cutover = s.cutover ∧
    (s.undoFamily f).status = s.status := by
  unfold State.undoFamily; dsimp only
  split
  · exact ⟨rfl, rfl⟩
  · next h' => exact absurd h' h
  · exact ⟨rfl, rfl⟩

theorem undoEach_next (xs : List FamilyNo) (hd : xs.Nodup) (s : State) (h : ∀ f ∈ xs, (s.family f).op ≠ .cutoverRoll) :
   (xs.foldl (fun s f => s.undoFamily f) s).cutover = s.cutover ∧
       (xs.foldl (fun s f => s.undoFamily f) s).status = s.status := by
  induction xs generalizing s with
  | nil => exact ⟨rfl, rfl⟩
  | cons x xs ih =>
    rw [List.nodup_cons] at hd
    have := ih hd.2 (s.undoFamily x) (fun f hf => by
      rw [undoFamily_keys_ne s (by rintro rfl; exact hd.1 hf)]; exact h f (List.mem_cons_of_mem _ hf))
    have k := undoFamily_next s x (h x List.mem_cons_self)
    exact ⟨this.1.trans k.1, this.2.trans k.2⟩

theorem restoreMid_next (s straps) (h : ∀ f,
    (s.family f).op ≠ .cutoverRoll) : (restoreMid s straps).cutover = (restoreSettled s straps).cutover ∧
    (restoreMid s straps).status = (restoreSettled s straps).status := by
  rw [restoreMid_eq, (restoreTail_keys _).2.1, (restoreTail_keys _).2.2]
  exact undoEach_next (List.finRange 8) (List.nodup_finRange 8) _ (fun f _ => by rw [restoreSettled_family]; exact h f)

theorem rollWhole_ne (s : State) {f g : FamilyNo} (h : g ≠ f) : FamilySame f s (s.rollWhole g) := by
  unfold State.rollWhole FamilySame; dsimp only
  split
  · split
    · simp [State.finishRoll, State.family, h]
    · rfl
  · rfl

/-- What a resumed procedure makes of a family: its whole turn from the next family on, nothing before it (R145, R147). -/
theorem resumeRolling_family (s : State) (f : FamilyNo) :
    s.resumeRolling.family f = match s.cutover.nextFamily with
      | some g => if g ≤ f ∧ (s.family f).now.rollAtCutover = true ∧
        (s.family f).now.canRoll = true then Family.settled (s.family f).now.rolled else s.family f
      | none => s.family f := by
  cases hn : s.cutover.nextFamily with
  | none => simp only [State.resumeRolling, hn]
  | some g =>
    simp only [State.resumeRolling, hn, State.rollFrom]
    by_cases hle : g ≤ f
    · obtain ⟨u, _, h1, h2⟩ := foldl_turn (FamilySame f) (fun _ => True) (fun s f => s.rollWhole f) f (fun _ => rfl)
        (fun _ _ _ a b => b.trans a) (fun _ _ _ => trivial)
        (fun s b _ h => rollWhole_ne s h) ((List.finRange 8).filter fun x => decide (g ≤ x)) (by simp [hle])
          ((List.nodup_finRange 8).filter _) s trivial
      rw [h2]
      unfold State.rollWhole
      dsimp only
      rw [h1]
      by_cases hr : (s.family f).now.rollAtCutover = true
      · by_cases hc : (s.family f).now.canRoll = true
        · rw [if_pos hr, if_pos hc, if_pos ⟨hle, hr, hc⟩]
          unfold State.finishRoll
          dsimp only
          rw [h1]
          simp [State.family]
        · rw [if_pos hr, if_neg hc, if_neg (fun h => hc h.2.2)]; exact h1
      · rw [if_neg hr, if_neg (fun h => hr h.2.1)]; exact h1
    · have := foldl_out (FamilySame f) (fun s f => s.rollWhole f) (fun _ => rfl) (fun _ _ _ a b => b.trans a)
        ((List.finRange 8).filter fun x => decide (g ≤ x))
        (fun s b hb => rollWhole_ne s (by rintro rfl; simp at hb; exact hle hb)) s
      rw [if_neg (fun h => hle h.1)]; exact this

theorem resumeClosing_keys (s : State) : s.resumeClosing.keys = s.keys ∧ s.resumeClosing.cutover = s.cutover := by
  unfold State.resumeClosing
  split
  · refine foldl_keeps (fun t => t.keys = s.keys ∧
      t.cutover = s.cutover) (fun s q => s.askClose q) (fun t q h => ?_) _ s ⟨rfl, rfl⟩
    unfold State.askClose
    split
    · rcases requestClose_cases t q .scheduled with ⟨p, _, e⟩ | ⟨_, _, e⟩ | ⟨_, _, _, e⟩ | ⟨_, _, _,
        e⟩ <;> rw [e] <;> exact h
    · exact h
  · exact ⟨rfl, rfl⟩

theorem resume_family (s : State) (hs : s.cutover.stage ≠ .idle) (f : FamilyNo)
    : s.resume.family f = s.resumeRolling.family f := by
  unfold State.resume
  split
  · next h => exact absurd h hs
  · rfl
  · show (s.resumeClosing.resumeRolling).family f = _
    rw [resumeRolling_family, resumeRolling_family, (resumeClosing_keys s).2]
    have : s.resumeClosing.family f = s.family f := by unfold State.family; rw [(resumeClosing_keys s).1]
    rw [this]

theorem holdsFlag_or (w v : BitVec 11) (f) (h : holdsFlag w f = true) : holdsFlag (w ||| v) f = true := by
  unfold holdsFlag at *; simp [h]

theorem restoreMid_defined (s straps r) : (restoreMid s straps).defined r = s.defined r := by
  unfold State.defined State.config; rw [(restoreMid_idleAt s straps).2.2]

theorem finish_route (s : State) (r) : RouteSame r s s.finishCutover := ⟨rfl, rfl⟩

theorem undoFamily_nextRoute (s : State) (f) : (s.undoFamily f).cutover.nextRoute = s.cutover.nextRoute := by
  unfold State.undoFamily; dsimp only; split <;> rfl

/-- The next route of the Cut-over Unit. -/
def NextRouteIs (x : Option RouteNo) (s : State) : Prop := s.cutover.nextRoute = x

theorem undoAll_nextRoute (s : State) : s.undoAll.cutover.nextRoute = s.cutover.nextRoute := by
  have : NextRouteIs s.cutover.nextRoute s.undoAll :=
    foldl_keeps (NextRouteIs s.cutover.nextRoute)
        _ (fun t f h => by unfold NextRouteIs at *; rw [undoFamily_nextRoute]; exact h) _ _ rfl
  exact this

theorem restoreMid_nextRoute (s straps) : (restoreMid s straps).cutover.nextRoute = s.cutover.nextRoute := by
  rw [restoreMid_eq, (restoreTail_keys _).2.1, undoAll_nextRoute, (restoreSettled_nextFamily s straps).2.1]

/-- A route before the next route, and one that is not defined, is not asked (R144, R147). -/
theorem closing_out (c cfg) (m : State) (first r : RouteNo) (hm : IdleAt c cfg m)
    (hn : m.cutover.nextRoute = some first) (h : r < first ∨ m.defined r = false) : RouteSame r m m.resumeClosing := by
  unfold State.resumeClosing
  rw [hn]
  dsimp only
  unfold State.askFrom
  by_cases hlt : r < first
  · refine foldl_out (RouteSame r) (fun s q => s.askClose q) (RouteSame.refl r) (RouteSame.trans r)
      _ (fun s b hb => askClose_ne s ?_) m
    rintro rfl
    simp at hb; exact absurd hlt (not_lt.mpr hb)
  · have hd : m.defined r = false := by rcases h with h | h; exact absurd h hlt; exact h
    obtain ⟨u, hu, h1, h2⟩ := foldl_turn (RouteSame r) (IdleAt c cfg) (fun s q => s.askClose q) r (RouteSame.refl r)
        (RouteSame.trans r)
      (fun s b h => askClose_idleAt _ _ s b h) (fun s b _ h => askClose_ne s h)
        ((List.finRange 4).filter fun q => decide (first ≤ q)) (by simp; exact not_lt.mp hlt)
        ((List.nodup_finRange 4).filter _) m hm
    have : u.askClose r = u := by
      unfold State.askClose
      have : u.defined r = false := by
        unfold State.defined State.config at hd ⊢; rw [hu.2.2, ← hm.2.2]; exact hd
      rw [if_neg (by simp [this])]
    rw [this] at h2
    exact RouteSame.trans r _ _ _ h1 h2

/-- A defined route from the next route on is asked once to close (R144, R147). -/
theorem closing_in (c cfg) (m : State) (first r : RouteNo) (hm : IdleAt c cfg m)
    (hn : m.cutover.nextRoute = some first) (hle : first ≤ r) (hd : m.defined r = true) :
    ∃ u, IdleAt c cfg u ∧ RouteSame r m u ∧ RouteSame r ((u.requestClose r .scheduled).1) m.resumeClosing := by
  unfold State.resumeClosing
  rw [hn]
  dsimp only
  unfold State.askFrom
  obtain ⟨u, hu, h1, h2⟩ := foldl_turn (RouteSame r) (IdleAt c cfg) (fun s q => s.askClose q) r (RouteSame.refl r)
      (RouteSame.trans r)
      (fun s b h => askClose_idleAt _ _ s b h) (fun s b _ h => askClose_ne s h)
        ((List.finRange 4).filter fun q => decide (first ≤ q)) (by simp; exact hle) ((List.nodup_finRange 4).filter _)
        m hm
  refine ⟨u, hu, h1, ?_⟩
  have : u.defined r = true := by
    unfold State.defined State.config at hd ⊢; rw [hu.2.2, ← hm.2.2]; exact hd
  have e : u.askClose r = (u.requestClose r .scheduled).1 := by unfold State.askClose; rw [if_pos this]
  rw [e] at h2
  exact h2

theorem resume_closing (m : State) (h1 : m.cutover.stage ≠ .idle) (h2 : m.cutover.stage ≠ .rolling)
    : m.resume = m.resumeClosing.resumeRolling.finishCutover := by
  unfold State.resume
  split
  · next h => exact absurd h h1
  · next h => exact absurd h h2
  · rfl

theorem restoreStart_status_part (s : State) (straps)
    : (restoreSettled s straps).status = s.status.lapse.abandoned.raise .restored := by
  unfold restoreSettled; rw [settleAll_status, (rewindEach_kept _ _).2.2.2.1]; rfl

/-! ### What a restore starts and keeps (R172) -/

/-- What no step of a restore after its start touches: supply, engine, links, intake, dispatch, clock and setting,
    configuration; and a raised RESTORED. -/
structure StartKept (s t : State) : Prop where
  supply : t.supply = s.supply
  valid : t.valid = s.valid
  engine : t.engine = s.engine
  links : t.links = s.links
  intake : t.intake = s.intake
  dispatch : t.dispatch = s.dispatch
  clock : t.cutover.clock = s.cutover.clock
  unset : t.cutover.unset = s.cutover.unset
  setting : t.cutover.setting = s.cutover.setting
  near : t.cutover.near = s.cutover.near
  enables : t.status.enables = s.status.enables
  config : t.status.config = s.status.config
  staged : t.status.staged = s.status.staged
  part : t.status.part = s.status.part
  restored : holdsFlag s.status.flags .restored = true → holdsFlag t.status.flags .restored = true

theorem StartKept.refl (s) : StartKept s s := ⟨rfl, rfl, rfl, rfl, rfl, rfl, rfl, rfl, rfl, rfl, rfl, rfl, rfl, rfl, id⟩

theorem StartKept.trans {s t u} (h : StartKept s t) (k : StartKept t u) : StartKept s u :=
  ⟨k.1.trans h.1, k.2.trans h.2, k.3.trans h.3, k.4.trans h.4, k.5.trans h.5, k.6.trans h.6, k.7.trans h.7,
      k.8.trans h.8, k.9.trans h.9, k.10.trans h.10, k.11.trans h.11, k.12.trans h.12, k.13.trans h.13,
      k.14.trans h.14, fun x => k.15 (h.15 x)⟩

theorem logFault_start (s : State) (c u) : StartKept s (s.logFault c u) := ⟨rfl, rfl, rfl, rfl, rfl, rfl, rfl, rfl,
    rfl, rfl, rfl, rfl, rfl, rfl, fun h => holdsFlag_or _ _ _ h⟩

theorem raise_start (s : State) (e) : StartKept s (s.raise e) := ⟨rfl, rfl, rfl, rfl, rfl, rfl, rfl, rfl, rfl, rfl,
    rfl, rfl, rfl, rfl, fun h => holdsFlag_or _ _ _ h⟩

theorem performClose_start (s : State) (r why) : StartKept s (s.performClose r why) := ⟨rfl, rfl, rfl, rfl, rfl, rfl,
    rfl, rfl, rfl, rfl, rfl, rfl, rfl, rfl, id⟩

theorem askClose_start (s : State) (r) : StartKept s (s.askClose r) := by
  unfold State.askClose
  split
  · rcases requestClose_cases s r .scheduled with ⟨p, _, e⟩ | ⟨_, _, e⟩ | ⟨_, _, _, e⟩ | ⟨_, _, _, e⟩ <;> rw [e]
    · exact StartKept.refl s
    · have h : StartKept s (s.setQueue r { s.queue r with pending := some ⟨.scheduled, .buffer, true⟩ }) := ⟨rfl, rfl,
        rfl, rfl, rfl, rfl, rfl, rfl, rfl, rfl, rfl, rfl, rfl, rfl, id⟩
      refine (h.trans (raise_start _ .closeDeferred)).trans ?_
      exact logFault_start _ _ _
    · exact ⟨rfl, rfl, rfl, rfl, rfl, rfl, rfl, rfl, rfl, rfl, rfl, rfl, rfl, rfl, id⟩
    · exact performClose_start _ _ _
  · exact StartKept.refl s

theorem undoFamily_start (s : State) (f) : StartKept s (s.undoFamily f) := by
  unfold State.undoFamily; dsimp only
  split
  · exact StartKept.refl s
  · exact ⟨rfl, rfl, rfl, rfl, rfl, rfl, rfl, rfl, rfl, rfl, rfl, rfl, rfl, rfl, fun h => holdsFlag_or _ _ _ h⟩
  · exact ⟨rfl, rfl, rfl, rfl, rfl, rfl, rfl, rfl, rfl, rfl, rfl, rfl, rfl, rfl, id⟩

theorem rollWhole_start (s : State) (f) : StartKept s (s.rollWhole f) := by
  unfold State.rollWhole; dsimp only
  split
  · split
    · refine ⟨rfl, rfl, rfl, rfl, rfl, rfl, rfl, rfl, rfl, rfl, rfl, rfl, rfl, rfl, fun h => ?_⟩
      simp only [State.finishRoll, State.raiseIf_status, StatusUnit.raiseIf]
      split
      · exact holdsFlag_or _ _ _ h
      · exact h
    · exact logFault_start _ _ _
  · exact StartKept.refl s

theorem settleWaiting_start (s : State) (r) : StartKept s (s.settleWaiting r) := by
  rcases settleWaiting_cases s r with e | ⟨p, _, _, e⟩ <;> rw [e]
  · exact StartKept.refl s
  · exact performClose_start _ _ _

theorem finish_start (s : State) : StartKept s s.finishCutover := ⟨rfl, rfl, rfl, rfl, rfl, rfl, rfl, rfl, rfl, rfl,
    rfl, rfl, rfl, rfl, fun h => holdsFlag_or _ _ _ h⟩

theorem resume_start (s : State) : StartKept s s.resume := by
  have hc : ∀ u : State, StartKept u u.resumeClosing := by
    intro u
    unfold State.resumeClosing
    split
    · exact foldl_keeps (StartKept u) _ (fun t r h => h.trans (askClose_start t r)) _ _ (StartKept.refl u)
    · exact StartKept.refl u
  have hr : ∀ u : State, StartKept u u.resumeRolling := by
    intro u
    unfold State.resumeRolling
    split
    · exact foldl_keeps (StartKept u) _ (fun t r h => h.trans (rollWhole_start t r)) _ _ (StartKept.refl u)
    · exact StartKept.refl u
  unfold State.resume
  split
  · exact StartKept.refl s
  · exact (hr s).trans (finish_start _)
  · exact ((hc s).trans (hr _)).trans (finish_start _)

theorem undoAll_start (s : State) : StartKept s s.undoAll :=
  foldl_keeps (StartKept s) _ (fun t r h => h.trans (undoFamily_start t r)) _ _ (StartKept.refl s)

/-- Supply, engine, links, intake and Cut-over Unit of a restore before operations on families are undone. -/
theorem restoreSettled_facts (s : State) (straps) : (restoreSettled s straps).supply = .on ∧
    (restoreSettled s straps).valid = s.valid ∧ (restoreSettled s straps).engine = .idle ∧
   (restoreSettled s straps).links = startLinks s.links straps ∧ (restoreSettled s straps).intake = Intake.start ∧
       (restoreSettled s straps).cutover = s.cutover.lapse.withoutNear := by
  have h : ∀ rs (t : State), (rewindEach t rs).supply = t.supply ∧ (rewindEach t rs).valid = t.valid ∧
      (rewindEach t rs).engine = t.engine ∧ (rewindEach t rs).links = t.links ∧ (rewindEach t rs).intake = t.intake ∧
      (rewindEach t rs).cutover = t.cutover := by
    intro rs
    induction rs with
    | nil => intro t; exact ⟨rfl, rfl, rfl, rfl, rfl, rfl⟩
    | cons r rs ih => intro t; exact ih _
  have k : ∀ t : State, t.settleAll.supply = t.supply ∧ t.settleAll.valid = t.valid ∧ t.settleAll.engine = t.engine ∧
      t.settleAll.links = t.links ∧ t.settleAll.intake = t.intake ∧ t.settleAll.cutover = t.cutover := by
    intro t
    have := foldl_keeps (fun u : State => StartKept t u) (fun s q => s.settleWaiting q)
        (fun u r h => h.trans (settleWaiting_start u r)) (List.finRange 4) t (StartKept.refl t)
    exact ⟨this.supply, this.valid, this.engine, this.links, this.intake, settleAll_cutover t⟩
  unfold restoreSettled
  obtain ⟨a1, a2, a3, a4, a5, a6⟩ := k (rewindEach (restoreStart s straps) (List.finRange 4))
  obtain ⟨b1, b2, b3, b4, b5, b6⟩ := h (List.finRange 4) (restoreStart s straps)
  exact ⟨a1.trans b1, a2.trans b2, a3.trans b3, a4.trans b4, a5.trans b5, a6.trans b6⟩

/-- A resumed procedure ends IDLE (R147). -/
theorem resume_stage (m : State) : m.resume.cutover.stage = .idle := by
  unfold State.resume
  split
  · next h => exact h
  · rfl
  · rfl

theorem restoreTail_start (s : State)
    : s.restoreDispatch.releaseAll.dispatch = (Vec.gen fun r => dispatchAtRestore (s.config r)) ∧
    s.restoreDispatch.releaseAll.supply = s.supply ∧ s.restoreDispatch.releaseAll.valid = s.valid ∧
    s.restoreDispatch.releaseAll.engine = s.engine ∧ s.restoreDispatch.releaseAll.links = s.links ∧
    s.restoreDispatch.releaseAll.intake = s.intake ∧ s.restoreDispatch.releaseAll.cutover = s.cutover ∧
    s.restoreDispatch.releaseAll.status = s.status := ⟨rfl, rfl, rfl, rfl, rfl, rfl, rfl, rfl⟩

/-- The Status and Setup Unit at a restore (R166, R172). -/
theorem lapse_abandoned (u : StatusUnit) : ((u.lapse.abandoned).raise .restored).enables = u.enables ∧
    ((u.lapse.abandoned).raise .restored).config = u.config ∧
    ((u.lapse.abandoned).raise .restored).staged = none ∧
        ((u.lapse.abandoned).raise .restored).flags = EventFlag.restored.mask ∧
        ((u.lapse.abandoned).raise .restored).log = [] ∧
    ((u.lapse.abandoned).raise .restored).overrun = false ∧
    (u.part ≠ .setup → ((u.lapse.abandoned).raise .restored).part = u.part) ∧
        (∀ prior, u.part = .setup → u.prior = some prior → ((u.lapse.abandoned).raise .restored).part = prior.part) := by
  by_cases h : u.part = .setup
  · simp [StatusUnit.lapse, StatusUnit.abandoned, StatusUnit.raise, h]
    intro p hp; simp [hp]
  · simp [StatusUnit.lapse, StatusUnit.abandoned, StatusUnit.raise, h]

end Sys2Proof.Machine
end

