-- ==== Sys2Proof/Laws/Wrap.lean ====
section
/-! SUPPORT. What a completion does: its own effect, then the close that falls due at it (R88 to R91). -/

namespace Sys2Proof.Machine

/-- An entry with an outstanding history entry is not released (R11). -/
theorem release_outstanding (engine : Engine) (t : TerminalNo) (e : Terminal)
    (h : e.history.any HistoryEntry.outstanding = true) : release engine t e = e := by
  simp [release, releasable, h]

/-- A history list with a PENDING entry added in front has an outstanding entry (R13). -/
theorem addHistory_outstanding (h : HistoryEntry) (hs : List HistoryEntry) (hp : h.disposition = .pending) :
    (addHistory h hs).any HistoryEntry.outstanding = true := by
  simp [addHistory, Config.historyLimit, HistoryEntry.outstanding, hp]

/-! ### The close that falls due (R91) -/

theorem dueClose_performed {s : State} {r : RouteNo} {last : Bool} {p : ClosePending}
    (hp : (s.queue r).pending = some p) (hb : (s.queue r).buffer = none) :
    s.dueClose r last = s.performClose r p.reasonNow := by
  simp [State.dueClose, hp, hb]

theorem dueClose_batchFull {s : State} {r : RouteNo} (hp : (s.queue r).pending = none)
    (hb : (s.queue r).buffer = none) : s.dueClose r true = s.performClose r .batchFull := by
  simp [State.dueClose, hp, hb]

theorem dueClose_full {s : State} {r : RouteNo} {p : ClosePending} (hp : (s.queue r).pending = some p)
    (hb : (s.queue r).buffer ≠ none) : s.dueClose r true = s.setQueue r (s.queue r).setFull := by
  simp [State.dueClose, hp, hb]

theorem dueClose_deferred {s : State} {r : RouteNo} (hp : (s.queue r).pending = none)
    (hb : (s.queue r).buffer ≠ none) :
    s.dueClose r true = (s.setQueue r (s.queue r).setFull).deferClose r .batchFull := by
  simp [State.dueClose, hp, hb]

/-- No close falls due while none is pending or the buffer is busy, and the batch is not full (R91, R111). -/
theorem dueClose_none {s : State} {r : RouteNo} (h : (s.queue r).pending = none ∨ (s.queue r).buffer ≠ none) :
    s.dueClose r false = s := by
  unfold State.dueClose
  cases hp : (s.queue r).pending with
  | none => simp [hp]
  | some p =>
    have hb : (s.queue r).buffer ≠ none := h.resolve_left (by simp [hp])
    simp [hp, hb]

/-! ### What a completion leaves unchanged (R88 to R90) -/

/-- A field that no part of a completion writes is as it was. -/
theorem completeWrap_keeps {α : Type} (f : State → α) (s : State) (k : ReservationKept) (w : ReservationWork)
    (happend : ∀ (u : State) (rec : Record), f (u.append k rec) = f u)
    (hengine : ∀ (u : State) (e : Engine), f { u with engine := e } = f u)
    (hstatus : ∀ (u : State) (c : Bool) (e : EventFlag), f (u.raiseIf c e) = f u)
    (htotals : ∀ (u : State) (r : RouteNo) (t : TerminalNo) (what : Completed) (a : Nat), f (u.addTotals r t what a) = f u)
    (hterm : ∀ (u : State) (t : TerminalNo) (e : Terminal), f (u.setTerm t e) = f u)
    (htest : ∀ (u : State) (t : TerminalNo), f (u.releaseTest t) = f u)
    (hanswer : ∀ (u : State) (l : LinkId) (corr : Byte) (code : Code) (reply : Reply), f (u.answer l corr code reply) = f u) :
    f (s.completeWrap k w) = f s := by
  unfold State.completeWrap
  dsimp only
  split <;> simp only [happend, hengine, hstatus, htotals, hterm, htest, hanswer]

theorem completeWrap_intake (s : State) (k : ReservationKept) (w : ReservationWork) :
    (s.completeWrap k w).intake = s.intake := by
  apply completeWrap_keeps (·.intake) <;> intros <;> rfl

theorem completeWrap_keys (s : State) (k : ReservationKept) (w : ReservationWork) :
    (s.completeWrap k w).keys = s.keys := by
  apply completeWrap_keeps (·.keys) <;> intros <;> rfl

theorem completeWrap_dispatch (s : State) (k : ReservationKept) (w : ReservationWork) :
    (s.completeWrap k w).dispatch = s.dispatch := by
  apply completeWrap_keeps (·.dispatch) <;> intros <;> rfl

theorem completeWrap_cutover (s : State) (k : ReservationKept) (w : ReservationWork) :
    (s.completeWrap k w).cutover = s.cutover := by
  apply completeWrap_keeps (·.cutover) <;> intros <;> rfl

theorem completeWrap_pending (s : State) (k : ReservationKept) (w : ReservationWork) :
    (s.completeWrap k w).pending = s.pending := by
  apply completeWrap_keeps (·.pending) <;> intros <;> rfl

theorem completeWrap_engine (s : State) (k : ReservationKept) (w : ReservationWork) :
    (s.completeWrap k w).engine = .idle := by
  unfold State.completeWrap
  dsimp only
  split <;> rfl

/-- The queues after a completion's own effect are those of the append (R88, R89). -/
theorem completeWrap_qm (s : State) (k : ReservationKept) (w : ReservationWork) :
    (s.completeWrap k w).qm = (s.append k (s.completedRecord k w)).qm := by
  unfold State.completeWrap
  dsimp only
  split <;> rfl

end Sys2Proof.Machine
end

