-- ==== Sys2Proof/Tests/Slice0.lean ====
section
/-! SUPPORT. Tests of the model: ill-formed commands refused, the spec's worked examples, one effect of each family of
commands, and for each statement a state and operands that meet its hypotheses. -/

namespace Sys2Proof.Tests

open Sys2Proof.Machine

/-! ### Helpers -/

/-- The state an outcome leads to. -/
def after (o : Host.Outcome State Fault Refusal) : State :=
  match o with
  | .next s => s
  | .fault _ => State.reset
  | .refused _ => State.reset

/-- The state a command leads to. -/
def run (c : Instr) (s : State) : State := after (exec c s)

/-- A link takes a frame with a payload of some length, as a test. -/
def hears (s : State) (l : LinkId) (n : Nat) : Bool :=
  s.supply == .on && (s.link l).receiver == .hunting && decide ((s.link l).queue.length < Config.responseLimit) &&
    decide (n + 2 ≤ largestBody l)

theorem hears_iff (s : State) (l : LinkId) (n : Nat) : hears s l n = true ↔ s.Hears l n := by
  simp only [hears, Bool.and_eq_true, beq_iff_eq, decide_eq_true_eq]
  constructor
  · rintro ⟨⟨⟨a, b⟩, c⟩, d⟩
    exact ⟨a, b, c, d⟩
  · rintro ⟨a, b, c, d⟩
    exact ⟨⟨⟨a, b⟩, c⟩, d⟩

/-- The last answer code in a link's response queue. -/
def lastCode (s : State) (l : LinkId) : Option Code :=
  match (s.link l).queue.getLast? with
  | some (.run (.answer _ code _) _) => some code
  | _ => none

/-- A configuration: K 4, fraction digits 2, HALF_UP, drain 5, 2, 5, window 2, tags 2 to 3, timeout 5, ceiling 1,000. -/
def cfg : RouteConfig := ⟨4, 2, .halfUp, 5, 2, 5, 2, 2, 3, 5, 4, 1000, true⟩

/-- A family in service: ceiling 3, low threshold 1. -/
def fam : Family := ⟨⟨.active, 1, 0, 0, 3, 1, true, some 7⟩, .none, none⟩

/-- A terminal of lane 0 on route 0 and family 0, floor limit 500. -/
def till : Terminal := ⟨.active, 0, 0, 0, 2, 500, [], Totals.zero⟩

/-- A RUNNING part with routes 0 and 2 defined, family 0 in service, terminal 0 enrolled. -/
def base : State :=
  { State.reset with
    status := { StatusUnit.blank with part := .running, config := Vec.put (Vec.put (Vector.replicate 4 none) 0 (some cfg)) 2 (some cfg) }
    keys := { KeyUnit.empty with families := Vec.put KeyUnit.empty.families 0 fam }
    terminals := Vec.put State.reset.terminals 0 till
    accounts := Vec.put State.reset.accounts 0 ⟨Totals.zero, 0, false, 1000, 1000⟩
    dispatch := Vec.put (Vec.put State.reset.dispatch 0 ⟨.down .start, 5, [], 0, .stopped, none⟩) 2
      ⟨.down .start, 5, [], 0, .stopped, none⟩
    qm := { QueueManager.empty with poolFree := List.range' 96 1952 }
    cutover := { CutoverUnit.initial with unset := false } }

/-- The same with route 0 UP. -/
def up : State := base.setRoute 0 ⟨.up, 5, [], 0, .stopped, none⟩

/-- Eight bytes of card data. -/
def card8 : List Byte := List.replicate 8 0x31#8

/-- An AUTH payload of terminal 0 for 1.00, till sequence 7. -/
def authBytes : List Byte := [0#8, 0#8, 7#8, 3#8, 0#8, 0#8, 0#8, 0#8, 1#8, 0#8, 8#8] ++ card8

/-! ### Ill-formed commands -/

theorem test_wf_frame_too_long (p : List Byte) (h : p.length = 65534) : (Instr.auth (.lane 0) 1#8 p).wf = false := by
  simp [Instr.wf, Instr.fits, Instr.frame, h]

theorem test_wf_frame_fits : (Instr.auth (.lane 0) 1#8 authBytes).wf = true := by decide

theorem test_wf_unknown_kind_known : (Instr.unknownKind .dispatch 1#8 0x10#8 []).wf = false := by decide

theorem test_wf_unknown_kind : (Instr.unknownKind .dispatch 1#8 0x19#8 []).wf = true := by decide

theorem test_wf_bad_frame_empty : (Instr.frameBad .dispatch []).wf = false := by decide

/-! ### Frames (R151, R152, R174) -/

theorem test_crc_check_value :
    crc [0x31#8, 0x32#8, 0x33#8, 0x34#8, 0x35#8, 0x36#8, 0x37#8, 0x38#8, 0x39#8] = 0x29B1#16 := by decide +kernel

theorem test_escaped_length :
    (frameOf (List.replicate 126 0#8)).take 4 = [126#8, 0#8, 125#8, 94#8] := by decide +kernel

theorem test_length_300_bad :
    Receiver.hearAll 256 .hunting [.byte 126#8, .byte 1#8, .byte 44#8] = (.hunting, .bad) := by decide

theorem test_decode_pull_block : decodeBody .dispatch [0x11#8, 9#8, 2#8, 5#8] = some (.pullBlock .dispatch 9#8 [2#8, 5#8]) := by
  decide

theorem test_decode_unknown : decodeBody .service [0x46#8, 9#8] = some (.unknownKind .service 9#8 0x46#8 []) := by decide

/-! ### Amounts (the worked cases of chapter 3) -/

theorem test_amount_case1 : amountCheck 6 [0, 0, 0, 0, 0, 0, 1, 2, 3, 4, 5, 6] 3 cfg = .ok 12346 := by decide

theorem test_amount_case2 :
    amountCheck 6 [0, 0, 0, 0, 0, 0, 1, 2, 3, 4, 5, 6] 3 { cfg with rounding := .down } = .ok 12345 := by decide

theorem test_amount_case3 :
    amountCheck 4 [0, 0, 0, 0, 0, 0, 0, 0, 4, 9, 9, 9] 1 { cfg with fraction := 3 } = .ok 499900 := by decide

theorem test_amount_case4 :
    amountCheck 1 [0, 0, 0, 0, 0, 0, 0, 0, 0, 0, 0, 4] 3 { cfg with fraction := 0 } = .error .amountZero := by decide

theorem test_amount_case5 :
    amountCheck 12 (List.replicate 12 9) 0 { cfg with fraction := 1 } = .error .amountRange := by decide

theorem test_amount_case6 :
    amountCheck 3 [0, 0, 0, 0, 0, 0, 0, 0, 0, 5, 0, 0] 3 { cfg with fraction := 0 } = .ok 1 := by decide

theorem test_amount_case7 :
    amountCheck 4 [12, 0, 0, 0, 0, 0, 0, 0, 0, 2, 5, 0] 2 cfg = .ok 250 ∧
    amountCheck 12 [12, 0, 0, 0, 0, 0, 0, 0, 0, 2, 5, 0] 2 cfg = .error .amountFormat := by decide

/-! ### Layout and selection (the examples of R96 and R120) -/

theorem test_layout :
    let config := Vec.put (Vec.put (Vec.put (Vector.replicate 4 none) 0 (some { cfg with k := 8 })) 1 (some { cfg with k := 6 })) 2
      (some { cfg with k := 10 })
    storePlace config 1 = ⟨320, 64⟩ ∧ storePlace config 2 = ⟨384, 1024⟩ ∧ poolStart config = 1408 := by decide +kernel

/-- A data record of route 0, batch 1. -/
def recordOf (cls : RecordClass) (st : RecordState) (sq till : Nat) : Record :=
  ⟨.auth, cls, st, ⟨0, 1, sq⟩, 0, till, ⟨0, 0⟩, ⟨0, 1, 0, 0⟩, false, 0, 2, 100, none, none⟩

theorem test_drain_table :
    let l := (0, recordOf .live .pending 1 1)
    let st := (64, recordOf .store .pending 2 2)
    let live := fun e => (Choice.data 0 l.2, e)
    let store := fun e => (Choice.data 64 st.2, e)
    drainChoice 5 5 2 l st = live 3 ∧ drainChoice 3 5 2 l st = live 1 ∧ drainChoice 1 5 2 l st = store 4 ∧
    drainChoice 4 5 2 l st = live 2 ∧ drainChoice 2 5 2 l st = store 5 := by decide

theorem test_batch_follows : nextBatch 65535 = 1 ∧ nextBatch 1 = 2 := by decide

theorem test_clock_wraps :
    nextSecond ⟨65535, 86399⟩ = ⟨0, 0⟩ ∧ nextSecond ⟨3, 86399⟩ = ⟨4, 0⟩ ∧ nextSecond ⟨3, 7⟩ = ⟨3, 8⟩ := by decide

/-! ### The step, arrival and links -/

theorem witness_StepTakesFrontCommand : (base.withCommand .tick).pending = .tick :: base.pending ∧ base.pending = [] := by
  decide +kernel

theorem test_fetch_word_spells_none : decodeTableWord 8 255 = none := rfl

/-- A response queue of some length. -/
def answers (n : Nat) : List QueueEntry := List.replicate n (.run frameBadAnswer [])

theorem witness_PrivilegeByRing :
    (∃ row ∈ partnerRows, row.ring < linkRing .dispatch ∧ row.lengths = some [43]) ∧
    (∃ row ∈ partnerRows, row.ring < linkRing (.lane 0) ∧ row.lengths = some [0, 2]) ∧
    hears base .dispatch 4094 = true ∧ hears base (.lane 0) 254 = true ∧ isPartner .dispatch = true ∧
    lastCode (run (.erase .dispatch 1#8 []) base) .dispatch = some .privilege ∧
    lastCode (run (.auth .service 1#8 []) base) .service = some .privilege := by
  refine ⟨⟨partnerRows[27], List.getElem_mem _, by decide, rfl⟩, ⟨partnerRows[16], List.getElem_mem _, by decide, rfl⟩, ?_⟩
  decide +kernel

/-- The base state in SETUP, two routes to define. -/
def inSetup : State :=
  { base with status := { base.status with part := .setup, prior := some .running, staged := some ⟨2, [true, false], []⟩ } }

theorem witness_PayloadLengthChecked :
    (∃ row ∈ partnerRows, row.lengths = some [0, 2] ∧ linkRing .dispatch ≤ row.ring) ∧
    (∃ row ∈ partnerRows, row.lengths = some [19] ∧ linkRing .service ≤ row.ring ∧ row.setup = true) ∧
    hears base .dispatch 1 = true ∧ 1 ∉ [0, 2] ∧ hears inSetup .service 18 = true ∧ 18 ∉ [19] ∧
    lastCode (run (.statusRead .dispatch 1#8 [0#8]) base) .dispatch = some .badParameter ∧
    (run (.routeDefine .service 1#8 []) inSetup).status.part = .running := by
  refine ⟨⟨partnerRows[16], List.getElem_mem _, rfl, by decide⟩, ⟨partnerRows[30], List.getElem_mem _, rfl, by decide, rfl⟩, ?_⟩
  decide +kernel

/-- The base state with lane 0's line in break. -/
def broken : State := base.setLink (.lane 0) { Link.start with low := true, receiver := .inBreak }

/-- The base state with 32 answers waiting on the dispatch link. -/
def fullLink : State := base.setLink .dispatch { Link.start with queue := answers 32 }

/-- The base state with a frame coming in on the service port, and 31 answers waiting. -/
def midFrame : State := base.setLink .service { Link.start with receiver := .receiving [0#8] false, queue := answers 31 }

/-- The same with a first byte that begins no frame of the service port. -/
def midOther : State := base.setLink .service { Link.start with receiver := .receiving [1#8] false, queue := answers 31 }

theorem witness_FrameArrival :
    (broken.link (.lane 0)).receiver = .inBreak ∧
    ((fullLink.link .dispatch).receiver = .hunting ∧ Config.responseLimit ≤ (fullLink.link .dispatch).queue.length) ∧
    { base with supply := .held }.supply ≠ .on ∧
    (midFrame.supply = .on ∧ (Instr.statusRead .service 1#8 []).frame = some (.service, [0x27#8, 1#8]) ∧
      (midFrame.link .service).receiver.begins [0x27#8, 1#8] = true ∧
      (midOther.link .service).receiver.begins [0x27#8, 1#8] = false) ∧
    (base.supply = .on ∧ (base.link (.lane 0)).receiver = .hunting ∧ largestBody (.lane 0) < 255 + 2) ∧
    lastCode (run (.statusRead .service 1#8 []) midFrame) .service = some .done ∧
    ((run (.statusRead .service 1#8 []) midFrame).link .service).receiver = .hunting ∧
    (run (.statusRead .service 1#8 []) midOther).link .service = { Link.start with queue := answers 32 } := by
  decide +kernel

theorem witness_FrameArrival_begins :
    (plainFrame [0x12#8, 1#8] = [0#8] ++ 2#8 :: (plainFrame [0x12#8, 1#8]).drop 2 ∧
      plainFrame [126#8, 1#8] = [0#8, 2#8] ++ 126#8 :: (plainFrame [126#8, 1#8]).drop 3) ∧
    (Receiver.receiving [0#8] false).begins [0x12#8, 1#8] = true ∧ (Receiver.receiving [0#8] true).begins [0x12#8, 1#8] = false ∧
    (Receiver.receiving [0#8, 2#8] true).begins [126#8, 1#8] = true ∧ (Receiver.receiving [1#8] false).begins [0x12#8, 1#8] = false := by
  decide +kernel

theorem test_frame_begun_by_a_marker_is_answered_once :
    let s := run (.frameBad .service [.byte 126#8, .byte 1#8, .byte 126#8]) base
    (s.link .service).receiver = .receiving [] false ∧ (s.link .service).queue = answers 1 ∧
    ((run (.statusRead .service 1#8 []) s).link .service).queue.length = 2 ∧
    lastCode (run (.statusRead .service 1#8 []) s) .service = some .done := by
  decide +kernel

theorem test_begins_after_an_escape :
    Receiver.begins (.receiving [0#8] true) (List.replicate 126 0#8) = true ∧
    Receiver.begins (.receiving [0#8] true) [0x27#8, 1#8] = false := by
  decide +kernel

theorem witness_NotRunningRefused :
    State.reset.status.part ≠ .running ∧ hears State.reset .dispatch 5 = true ∧ hears inSetup .service 43 = true ∧
    (∃ row ∈ runningRows, row.lengths = some [5] ∧ linkRing .dispatch ≤ row.ring) ∧
    (∃ row ∈ notInSetupRows, row.lengths = some [43] ∧ linkRing .service ≤ row.ring) ∧
    lastCode (run (.move .dispatch 1#8 [0#8, 0#8, 0#8, 0#8, 0#8]) State.reset) .dispatch = some .notRunning ∧
    lastCode (run (.retireFamily .service 1#8 [0#8]) inSetup) .service = some .notRunning := by
  refine ⟨by decide +kernel, by decide +kernel, by decide +kernel, ⟨runningRows[18], List.getElem_mem _, rfl, by decide⟩,
    ⟨notInSetupRows[1], List.getElem_mem _, rfl, by decide⟩, by decide +kernel, by decide +kernel⟩

theorem witness_FrameRoundTrip :
    (2 ≤ ([0x0F#8, 1#8] : List Byte).length ∧ (Instr.linkReset .service 1#8 []).wf = true ∧
      (Instr.linkReset .service 1#8 []).frame = some (.service, [0x0F#8, 1#8])) ∧
    (List.replicate 256 125#8 : List Byte).length ≤ largestBody (.lane 0) ∧
    Receiver.hearAll 256 .hunting ((frameOf [0x0F#8, 126#8]).map LineChar.byte) = (.hunting, .complete [0x0F#8, 126#8]) ∧
    Receiver.hearAll 256 .hunting (((frameOf [0x0F#8, 126#8]).map LineChar.byte).take 5) =
      (.receiving [0#8, 2#8, 0x0F#8] true, .nothing) ∧
    Receiver.begins (.receiving [0#8, 2#8, 0x0F#8] true) [0x0F#8, 126#8] = true := by
  decide +kernel

/-- The record of the spec's worked example of an offered frame. -/
def exampleRecord : Record :=
  { kind := .auth, cls := .store, state := .offered, id := ⟨0, 41, 120⟩, terminal := 1, till := 7, stamp := ⟨3, 300⟩
    key := ⟨1, 2, 6, 502⟩, offline := true, offers := 1, fraction := 2, amount := 1000
    card := some ⟨List.replicate 32 0xAA#8, 13⟩, ref := none }

theorem test_example_image :
    let body := (Message.offered 9#8 0 0 (.data exampleRecord)).body
    let img := recordImage exampleRecord
    body.length = 71 ∧ img.length = 67 ∧ body.take 7 = [0x81#8, 9#8, 0#8, 0#8, 1#8, 2#8, 2#8] ∧
    (img.drop 3).take 5 = [0#8, 0x29#8, 0#8, 0x78#8, 1#8] ∧ (img.drop 15).take 8 = [1#8, 0#8, 2#8, 0#8, 6#8, 0#8, 1#8, 0xF6#8] ∧
    (img.drop 23).take 12 = [1#8, 1#8, 2#8, 0#8, 0#8, 0#8, 0#8, 0x10#8, 0#8, 1#8, 32#8, 13#8] ∧
    (frameBytes body).take 2 = [0#8, 0x47#8] := by
  decide +kernel

theorem test_layout_lengths :
    let close : CloseRecord := ⟨⟨0, 41, 121⟩, .manual, ⟨3, 1⟩, ⟨4, 5⟩, ⟨1, 2, 3, 4, 5, 6, 7, 8⟩, 999999999999999, true,
      [(2, ⟨1, 2, 3, 4, 5, 6, 7, 8⟩)], .offered, 9⟩
    let img := closeImage close
    img.length = 62 + 35 ∧ (img.drop 17).take 2 = [1#8, 9#8] ∧ (img.drop 43).take 8 = 9#8 :: List.replicate 7 0x99#8 ∧
    (img.drop 59).take 4 = [0#8, 8#8, 1#8, 2#8] ∧
    (statusBytes base.statusReport).length = 108 ∧ ((statusBytes base.statusReport).drop 28).take 3 = [1#8, 0#8, 1#8] ∧
    (queueBytes (base.queueReport 0)).length = 2 + 2 + 5 + (1 + 2) + 1 + 2 + 2 + 2 + 2 + 1 + 2 + 1 + (2 + 1 + 2) := by
  decide +kernel

theorem witness_LinkResets :
    (midFrame.supply = .on ∧ (midFrame.link .service).receiver ≠ .inBreak ∧ 254 + 2 ≤ largestBody .service) ∧
    (base.link (.lane 3)).receiver ≠ .inBreak ∧ (broken.link (.lane 0)).receiver = .inBreak ∧
    (run (.linkReset .service 9#8 []) midFrame).link .service = { Link.start with queue := [.run (.answer 9#8 .done .bare) []] } ∧
    (run (.lineBreak (.lane 3)) base).link (.lane 3) = { Link.start with low := true, receiver := .inBreak } := by
  decide +kernel

theorem witness_LinkResets_edges :
    let big := Instr.linkReset .service 9#8 (List.replicate 255 0#8)
    (largestBody .service < 255 + 2 ∧ (base.link .service).receiver = .hunting ∧
      (midOther.link .service).receiver.begins (0x0F#8 :: 9#8 :: List.replicate 255 0#8) = true ∧
      (midFrame.link .service).receiver.begins (0x0F#8 :: 9#8 :: List.replicate 255 0#8) = false) ∧
    ((run big base).link .service).queue = answers 1 ∧ ((run big midOther).link .service).queue = answers 32 ∧
    ((run big midFrame).link .service).queue = answers 32 ∧
    run (.linkReset (.lane 0) 9#8 []) broken = broken ∧ run (.lineBreak (.lane 0)) broken = broken ∧
    (run (.lineBreakEnd .service) midFrame).link .service = midFrame.link .service ∧
    (run (.lineBreakEnd (.lane 0)) broken).link (.lane 0) = Link.start := by
  decide +kernel

theorem witness_BadFramesAnswered :
    (midFrame.link .service).receiver.hearAll (largestBody .service) [.byte 1#8] = (.hunting, .bad) ∧
    (fullLink.link .dispatch).receiver.hearAll (largestBody .dispatch) [.byte 126#8, .noStop] = (.hunting, .bad) ∧
    (0x05#8 : Byte) ∉ requestKinds ∧ (0x19#8 : Byte) ∉ requestKinds ∧ hears base .dispatch 0 = true ∧
    (run (.frameBad .dispatch [.byte 126#8, .noStop]) fullLink).link .dispatch = fullLink.link .dispatch ∧
    lastCode (run (.unknownKind .dispatch 1#8 0x19#8 []) base) .dispatch = some .unknownKind := by
  decide +kernel

theorem witness_BadFramesAnswered_characters :
    let hear := fun taken esc b => (Receiver.receiving taken esc).hear 256 (.byte b)
    let whole := frameBytes [0x0F#8, 1#8]
    (hear [] false 0#8 = (.receiving [0#8] false, .nothing) ∧ hear [0#8] false 1#8 = (.hunting, .bad) ∧
      hear [0#8] false 2#8 = (.receiving [0#8, 2#8] false, .nothing) ∧ hear [1#8] false 0#8 = (.receiving [1#8, 0#8] false, .nothing) ∧
      hear [1#8] false 1#8 = (.hunting, .bad)) ∧
    hear [0#8] true 94#8 = (.receiving [0#8, 126#8] false, .nothing) ∧ hear [0#8] true 93#8 = (.receiving [0#8, 125#8] false, .nothing) ∧
    hear [0#8] true 95#8 = (.hunting, .bad) ∧ hear [0#8] true 126#8 = (.receiving [] false, .bad) ∧
    hear (whole.take 5) false (whole.getLastD 0#8) = (.hunting, .complete [0x0F#8, 1#8]) ∧
    hear (whole.take 5) false 0#8 = (.hunting, .bad) := by
  decide +kernel

/-! ### Lanes -/

/-- An AUTH of terminal 0 for 1.00 with till sequence 7. -/
def req : Request := ⟨0, 1#8, .auth 3 [0, 0, 0, 0, 0, 0, 0, 0, 0, 1, 0, 0], 0, 7, card8⟩

/-- A state with requests queued on a lane. -/
def queued (s : State) (i : LaneNo) (qs : List Request) : State := s.setLane i ⟨qs, false⟩

/-- What varies in the wrap requests below: terminal, declared and actual card length. -/
structure WrapTry where
  terminal : Byte
  declared : Byte
  card     : Nat

/-- The payload of a wrap request. -/
def WrapTry.bytes (w : WrapTry) : List Byte :=
  [w.terminal, 0#8, 7#8, 3#8, 0#8, 0#8, 0#8, 0#8, 1#8, 0#8, w.declared] ++ List.replicate w.card 0x31#8

theorem witness_WrapRequestsQueued :
    let s := queued base 0 (List.replicate 7 req)
    hears s (.lane 0) 75 = true ∧ s.status.part = .running ∧ (s.term 0).state ≠ .vacant ∧ (s.term 0).lane = 0 ∧
    8 ≤ (8#8 : Byte).toNat ∧ (64#8 : Byte).toNat ≤ 64 ∧ (s.lane 0).queue.length < 8 ∧
    ((run (.refund (.lane 0) 1#8 (WrapTry.bytes ⟨0#8, 64#8, 64⟩)) s).lane 0).queue.length = 8 ∧
    ((run (.auth (.lane 0) 1#8 authBytes) base).lane 0).queue = [req] ∧
    ((run (.reversal (.lane 0) 1#8 authBytes) base).lane 0).queue = [{ req with item := .reversal 768 }] := by
  decide +kernel

theorem witness_ArrivalRefusals :
    let code := fun s i p => lastCode (run (.auth (.lane i) 1#8 p) s) (.lane i)
    hears State.reset (.lane 0) 0 = true ∧ State.reset.status.part ≠ .running ∧ hears base (.lane 1) 76 = true ∧
    code State.reset 0 [] = some .notRunning ∧
    code base 0 (List.replicate 10 0#8) = some .cardShort ∧
    code base 0 (WrapTry.bytes ⟨64#8, 8#8, 8⟩) = some .terminalRange ∧
    code base 0 (WrapTry.bytes ⟨63#8, 8#8, 8⟩) = some .terminalVacant ∧
    code base 1 (WrapTry.bytes ⟨0#8, 8#8, 8⟩) = some .wrongLane ∧
    code base 0 (WrapTry.bytes ⟨0#8, 7#8, 7⟩) = some .cardLength ∧
    code base 0 (WrapTry.bytes ⟨0#8, 65#8, 65⟩) = some .cardLength ∧
    code base 0 (WrapTry.bytes ⟨0#8, 64#8, 63⟩) = some .cardShort ∧
    code base 0 (WrapTry.bytes ⟨0#8, 8#8, 9⟩) = some .cardLong ∧
    code (queued base 0 (List.replicate 8 req)) 0 (WrapTry.bytes ⟨0#8, 8#8, 8⟩) = some .busy := by
  decide +kernel

theorem witness_HoldsAndCeilings :
    (hears base .dispatch 1 = true ∧ base.status.part = .running ∧ (3#8 : Byte).toNat = (3 : LaneNo).val ∧
      4 ≤ (4#8 : Byte).toNat) ∧
    (hears base .service 7 = true ∧ packedOf (List.replicate 6 0x99#8) = some 999999999999 ∧ base.defined 0 = true ∧
      base.defined 3 = false) ∧
    ((run (.holdLane .dispatch 1#8 [3#8]) base).lane 3).held = true ∧
    ((run (.setCeiling .service 1#8 (0#8 :: List.replicate 6 0x99#8)) base).account 0).pending = 999999999999 ∧
    lastCode (run (.setCeiling .service 1#8 (4#8 :: List.replicate 6 0x99#8)) base) .service = some .badParameter ∧
    lastCode (run (.setCeiling .service 1#8 (3#8 :: List.replicate 6 0x9A#8)) base) .service = some .badParameter := by
  decide +kernel

theorem witness_QueriesOnlyAnswer :
    (hears base (.lane 2) 254 = true ∧ hears base .dispatch 1 = true ∧ base.config 0 = some cfg ∧ base.config 3 = none ∧
      (63#8 : Byte).toNat = (63 : TerminalNo).val ∧ 64 ≤ (64#8 : Byte).toNat ∧ (7#8 : Byte).toNat = (7 : FamilyNo).val ∧
      8 ≤ (8#8 : Byte).toNat ∧ 4 ≤ (4#8 : Byte).toNat) ∧
    lastCode (run (.laneStatus (.lane 2) 1#8 []) base) (.lane 2) = some .done ∧
    lastCode (run (.routeQuery .dispatch 1#8 [3#8]) base) .dispatch = some .routeUndefined := by
  decide +kernel

theorem witness_QueriesOnlyAnswer_reports :
    let busy := base.setFamily 0 { fam with now := { fam.now with state := .loading } }
    (FamilyWaits busy req ∧ ¬ FamilyWaits base req ∧ ¬ FamilyWaits (busy.setTerm 0 Terminal.vacant) req) ∧
    (base.headState 0 = .noHead ∧ (queued base 0 [req]).headState 0 = .eligible ∧
      (queued busy 0 [req]).headState 0 = .familyBusy ∧ (busy.setLane 0 ⟨[req], true⟩).headState 0 = .laneHeld) ∧
    ((run (.familyQuery .dispatch 1#8 [0#8]) base).link .dispatch).queue =
      [.run (.answer 1#8 .done (.family ⟨.active, 1, 0, 0, 3, 1, true, .none, true, 3, false, 1⟩)) []] ∧
    ((run (.familyQuery .dispatch 1#8 [7#8]) base).link .dispatch).queue =
      [.run (.answer 1#8 .done (.family ⟨.empty, 0, 0, 0, (base.family 7).now.ceiling, 0, false, .none, false,
        (base.family 7).now.ceiling, false, 0⟩)) []] := by
  unfold FamilyWaits
  decide +kernel

/-! ### Grants -/

/-- The queue state of route 0 replaced. -/
def withQueue (s : State) (q : RouteQueue) : State := s.setQueue 0 q

/-- A history entry of an AUTH of 1.00, batch 1, sequence 1, with till sequence 7. -/
def past : HistoryEntry := ⟨7, .auth, 100, ⟨0, 1, 1⟩, .live, .pending, false, false⟩

/-- Terminal 0 with a history list. -/
def withPast (s : State) (hs : List HistoryEntry) : State := s.setTerm 0 { till with history := hs }

/-- A REVERSAL of till sequence 7, with till sequence 8. -/
def rev : Request := { req with item := .reversal 7, till := 8 }

theorem witness_GrantOrder :
    let s := queued (queued up 0 [req]) 2 [{ rev with lane := 2 }]
    (s.grantLane = some 2 ∧ s.eligible 0 = true ∧ s.eligible 2 = true ∧ s.urgentHead 2 = true ∧ s.urgentHead 0 = false) ∧
    up.grantLane = none ∧ (∀ j, up.eligible j = false) ∧ (queued (queued up 0 [req]) 1 [req]).grantLane = some 1 := by
  decide +kernel

theorem witness_GrantOrder_eligible :
    let s := queued up 0 [req]
    s.eligible 0 = true ∧ s.urgentHead 0 = false ∧ (queued up 0 [rev]).urgentHead 0 = true ∧ up.eligible 0 = false ∧
    (up.setLane 0 ⟨[req], true⟩).eligible 0 = false ∧ { s with engine := .cut ⟨1, 1, .live 0, ⟨1, 1, 0, 0⟩⟩ }.eligible 0 = false ∧
    { s with cutover := { s.cutover with stage := .closing } }.eligible 0 = false ∧
    { s with status := { s.status with part := .setup } }.eligible 0 = false ∧
    (s.setFamily 0 { fam with now := { fam.now with state := .rolling } }).eligible 0 = false ∧
    (s.setTerm 0 Terminal.vacant).eligible 0 = true ∧
    (searchPlace 0 1 = 0 ∧ searchPlace 0 0 = 3 ∧ searchPlace 3 0 = 0 ∧ searchPlace 3 3 = 3) := by
  decide +kernel

theorem witness_GrantRefusals :
    let held := queued (up.setTerm 0 { till with state := .held }) 0 [req]
    let again := queued (withPast up [past]) 0 [req]
    (held.supply = .on ∧ held.grantLane = some 0 ∧ held.grantChecks req = .refused .terminalHeld) ∧
    (again.grantLane = some 0 ∧ again.grantChecks req = .duplicate past) ∧
    lastCode (run .grant held) (.lane 0) = some .terminalHeld ∧ lastCode (run .grant again) (.lane 0) = some .duplicate := by
  decide +kernel

theorem witness_GrantChecksInOrder_terminal :
    let code := fun s => s.grantChecks rev
    (base.setTerm 0 Terminal.vacant).grantChecks req = .refused .terminalVacant ∧
    (base.setTerm 0 { till with state := .closing }).grantChecks req = .refused .terminalClosing ∧
    code up = .refused .notFound ∧
    code (withPast up [{ past with kind := .refund }]) = .refused .notReversible ∧
    code (withPast up [{ past with reversed := true }]) = .refused .alreadyReversed ∧
    code (withPast up [{ past with id := ⟨0, 2, 1⟩ }]) = .refused .stale ∧
    code (withPast up [past]) = .withdraw past ∧
    code (withPast up [{ past with disposition := .acked }]) =
      .wrap ⟨.reversal, 0, .live, false, 100, 2, some ⟨⟨0, 1, 1⟩, 7⟩, .live 0, 0⟩ := by
  decide +kernel

theorem witness_GrantChecksInOrder_later :
    let q := base.queue 0
    let inState := fun (st : FamilyState) => up.setFamily 0 { fam with now := { fam.now with state := st } }
    base.config till.route = some cfg ∧
    (withQueue base { q with full := true }).laterChecks till .auth 100 none = .refused .batchFull ∧
    base.laterChecks till .auth 501 none = .refused .routeDown ∧
    (base.setAccount 0 ⟨Totals.zero, 501, false, 1000, 1000⟩).laterChecks till .auth 500 none = .refused .offlineLimit ∧
    base.laterChecks till .auth 500 none = .wrap ⟨.auth, 0, .store, true, 500, 2, none, .store 0, 0⟩ ∧
    (withQueue up { q with live := ⟨0, 0, 16⟩ }).laterChecks till .auth 1 none = .refused .liveFull ∧
    State.laterChecks { withQueue up { q with store := ⟨0, 0, 16⟩ } with qm := { (withQueue up { q with store := ⟨0, 0, 16⟩ }).qm with poolFree := [] } }
      till .refund 1 none = .refused .storeFull ∧
    (inState .exhausted).laterChecks till .auth 1 none = .refused .keyExhausted ∧
    (inState .retired).laterChecks till .auth 1 none = .refused .keyUnavailable ∧
    (inState .empty).laterChecks till .auth 1 none = .refused .keyUnavailable ∧
    (inState .low).laterChecks till .auth 1 none = .wrap ⟨.auth, 0, .live, false, 1, 2, none, .live 0, 0⟩ := by
  decide +kernel

/-- A REFUND of terminal 0 for 1.00 with till sequence 7. -/
def refund : Request := { req with item := .refund 3 [0, 0, 0, 0, 0, 0, 0, 0, 0, 1, 0, 0] }

theorem witness_GrantChecksInOrder_amount :
    let amount := fun (count : Nat) (nibbles : List Nat) (e : Terminal) =>
      (up.setTerm 0 e).grantChecks { req with item := .auth count nibbles }
    (amountCheck 3 [0, 0, 0, 0, 0, 0, 0, 0, 0, 1, 0, 0] 2 cfg = .ok 100 ∧ up.config 0 = some cfg ∧ base.config 3 = none) ∧
    amount 0 (List.replicate 12 1) till = .refused .amountFormat ∧
    amount 1 (List.replicate 12 0) till = .refused .amountZero ∧
    amount 12 (List.replicate 12 9) { till with fraction := 1 } = .refused .amountRange ∧
    amount 13 (List.replicate 12 1) { till with route := 3 } = .refused .amountFormat ∧
    amount 1 (List.replicate 12 0) { till with route := 3 } = .refused .routeUndefined := by
  decide +kernel

/-- What varies in the store rings below: records in the ring, slots in the overflow part, free pool slots. -/
structure StoreTry where
  ring     : Nat
  overflow : List Nat
  free     : List Nat

/-- A state with route 0's STORE places as said. -/
def StoreTry.on (t : StoreTry) (s : State) : State :=
  { s with
    qm := { s.qm with
      poolFree := t.free
      queues := Vec.put s.qm.queues 0 { s.queue 0 with store := ⟨0, 0, t.ring⟩, overflow := t.overflow } } }

theorem witness_GrantChecksInOrder_store :
    let checks := fun t q => (StoreTry.on t up).grantChecks q
    let stored := fun slot => Verdict.wrap ⟨.refund, 0, .store, false, 100, 2, none, slot, 0⟩
    let down := withPast base [{ past with disposition := .acked }]
    ((StoreTry.on ⟨16, [], []⟩ up).storeRoom 0 = 0 ∧ (StoreTry.on ⟨16, [96], []⟩ up).storeRoom 0 = 0 ∧
      (StoreTry.on ⟨15, [], []⟩ up).ringRoom 0 = 1 ∧ (down.route 0).state ≠ .up) ∧
    checks ⟨15, [], []⟩ refund = stored (.store 15) ∧ checks ⟨16, [], [96, 97]⟩ refund = stored (.pool 96) ∧
    checks ⟨0, [96], [97]⟩ refund = stored (.pool 97) ∧ checks ⟨16, [], []⟩ refund = .refused .storeFull ∧
    checks ⟨0, [96], []⟩ refund = .refused .storeFull ∧
    base.grantChecks req = .wrap ⟨.auth, 0, .store, true, 100, 2, none, .store 0, 0⟩ ∧
    down.grantChecks rev = .wrap ⟨.reversal, 0, .store, false, 100, 2, some ⟨⟨0, 1, 1⟩, 7⟩, .store 0, 0⟩ ∧
    (base.setFamily 0 { fam with now := { fam.now with state := .exhausted } }).grantChecks req = .refused .keyExhausted ∧
    (base.setFamily 0 { fam with now := { fam.now with state := .retired } }).grantChecks refund = .refused .keyUnavailable := by
  decide +kernel

theorem witness_AmountsAndTotals :
    amountCheck 0 (List.replicate 12 1) 2 cfg = .error .amountFormat ∧
    amountCheck 13 (List.replicate 12 1) 2 cfg = .error .amountFormat ∧
    amountCheck 12 (List.replicate 12 9) 2 cfg = .ok 999999999999 ∧
    amountCheck 1 (List.replicate 12 0) 2 cfg = .error .amountZero ∧
    (Totals.zero.add .offlineSale 5).sale = 5 ∧
    ({ Totals.zero with refund := 999999999999998 }.add .refund 2).refund = 999999999999999 := by
  decide

theorem witness_AmountsAndTotals_saturated :
    ({ Totals.zero with sale := 999999999999998 }.saturated .sale 1 = false ∧
      { Totals.zero with sale := 999999999999998 }.saturated .offlineSale 2 = true) ∧
    ({ Totals.zero with reversal := 999999999999999 }.saturated .withdrawal 0 = false ∧
      { Totals.zero with reversal := 999999999999999 }.saturated .reversal 1 = true) ∧
    { Totals.zero with sale := 999999999999999 }.saturated .refund 1 = false := by
  decide

/-- The plan of `req` on the route UP. -/
def plan : WrapPlan := ⟨.auth, 0, .live, false, 100, 2, none, .live 0, 0⟩

/-- Route 0 UP, `req` waiting, the family's counter at some value. -/
def toGrant (counter : Nat) : State :=
  queued (up.setFamily 0 { fam with now := { fam.now with counter := counter } }) 0 [req]

theorem witness_GrantReserves :
    let pool := queued (withQueue base { base.queue 0 with store := ⟨0, 0, 16⟩ }) 0 [{ req with item := .refund 3 [0, 0, 0, 0, 0, 0, 0, 0, 0, 1, 0, 0] }]
    (∀ n ∈ [0, 1, 2], (toGrant n).grantLane = some 0 ∧ (toGrant n).grantChecks req = .wrap plan) ∧
    ((run .grant (toGrant 0)).family 0).now.state = .active ∧ ((run .grant (toGrant 1)).family 0).now.state = .low ∧
    ((run .grant (toGrant 2)).family 0).now.state = .exhausted ∧
    holdsFlag (run .grant (toGrant 2)).status.flags .keyExhausted = true ∧
    (run .grant pool).engine.isIdle = false ∧ (run .grant pool).qm.poolFree.head? = some 97 := by
  decide +kernel

/-- Route 0 with one record in its live ring, in slot 0, and the terminal's history entry for it. -/
def withRecord (st : RecordState) (hs : List HistoryEntry) : State :=
  let s := withPast up hs
  { s with
    qm := { s.qm with
      slots := [(0, recordOf .live st 1 7)]
      queues := Vec.put s.qm.queues 0 { s.queue 0 with nextSeq := 2, live := ⟨0, if st = .pending then 0 else 1, 1⟩ } } }

theorem witness_WithdrawalVoidsInPlace :
    let s := queued (withRecord .pending [past]) 0 [rev]
    (s.supply = .on ∧ s.grantLane = some 0 ∧ s.grantChecks rev = .withdraw past ∧ s.slotOf 0 past.id = some 0 ∧
      s.at? 0 = some (recordOf .live .pending 1 7)) ∧
    lastCode (run .grant s) (.lane 0) = some .withdrawn ∧ ((run .grant s).at? 0).map (·.kind) = some .void ∧
    ((run .grant s).account 0).totals.voidCount = 1 := by
  decide +kernel

/-! ### Completions -/

/-- A wrap in flight on route 0 for terminal 0, in a slot. -/
def inFlight (s : State) (slot : ReservedSlot) (w : ReservationWork) : State :=
  { s with engine := .busy ⟨0, 1, slot, ⟨0, 1, 0, 0⟩⟩ w }

/-- The working fields of an AUTH of 1.00. -/
def work : ReservationWork := ⟨0, 1#8, .auth, 0, 7, .live, false, 100, 2, ⟨0, 0⟩, none, card8, false⟩

theorem witness_CompletionMakesRecord :
    let live := inFlight up (.live 0) work
    let store := inFlight base (.store 0) { work with cls := .store, offline := true }
    let pool := inFlight base (.pool 96) { work with kind := .reversal, cls := .store, ref := some ⟨⟨0, 1, 1⟩, 7⟩, discarded := true }
    (∀ s ∈ [live, store, pool], s.supply = .on ∧ (s.queue 0).pending = none ∧ (s.queue 0).nextSeq ≠ 65534) ∧
    lastCode (run .completion live) (.lane 0) = some .wrapped ∧
    lastCode (run .completion store) (.lane 0) = some .offlineAccepted ∧
    lastCode (run .completion pool) (.lane 0) = none ∧ ((run .completion pool).queue 0).overflow = [96] ∧
    (run .completion live).engine = .idle ∧ ((run .completion live).at? 0).map (·.id) = some ⟨0, 1, 1⟩ := by
  decide +kernel

theorem witness_GrantChecksInOrder_room :
    let with_ := fun slot => inFlight (StoreTry.on ⟨15, [], [96]⟩ up) slot work
    ((with_ (.live 0)).liveRoom 0 = 15 ∧ (with_ (.store 15)).liveRoom 0 = 16 ∧ (with_ (.live 0)).liveRoom 1 = 16) ∧
    ((with_ (.store 15)).ringRoom 0 = 0 ∧ (with_ (.pool 97)).ringRoom 0 = 1 ∧ (with_ (.store 15)).ringRoom 2 = 16) ∧
    ((with_ (.store 15)).storeRoom 0 = 1 ∧ (with_ (.pool 97)).storeRoom 0 = 2 ∧
      (StoreTry.on ⟨0, [96], [97, 98]⟩ up).storeRoom 0 = 2) := by
  decide +kernel

/-- An offline grant in flight, its record bound for a place of the ring. -/
def storing (n : Nat) : State :=
  inFlight (StoreTry.on ⟨n, [], []⟩ base) (.store n) { work with cls := .store, offline := true }

/-- A grant in flight that saturates its route's sale total, the account marked or not. -/
def sated (marked : Bool) : State :=
  inFlight (up.setAccount 0 ⟨{ Totals.zero with sale := 999999999999900 }, 0, marked, 1000, 1000⟩) (.live 0) work

theorem witness_CompletionMakesRecord_events :
    ((base.queue 0).pending = none ∧ (base.queue 0).nextSeq ≠ 65534 ∧ cfg.highWater = 4) ∧
    (run .completion (storing 11)).status.flags = EventFlag.storeHigh.mask ∧ (run .completion (storing 10)).status.flags = 0#11 ∧
    (run .completion (sated false)).status.flags = EventFlag.totalOverflow.mask ∧
    ((run .completion (sated false)).account 0).overflow = true ∧ (run .completion (sated true)).status.flags = 0#11 ∧
    ((run .completion (inFlight up (.live 0) work)).queue 0).live = ⟨0, 0, 1⟩ := by
  decide +kernel

/-- A close record of batch 9 of route 0. -/
def oldClose (st : RecordState) : CloseRecord := ⟨⟨0, 9, 2⟩, .manual, ⟨0, 0⟩, ⟨0, 0⟩, Totals.zero, 0, false, [], st, 0⟩

theorem witness_CompletionCloses :
    let on := fun q => inFlight (withQueue up q) (.live 0) work
    let q := up.queue 0
    ((on { q with pending := some ⟨.manual, .wrap, false⟩ }).queue 0).buffer = none ∧
    ((run .completion (on { q with pending := some ⟨.manual, .wrap, false⟩ })).queue 0).batch = 2 ∧
    ((run .completion (on { q with nextSeq := 65534 })).queue 0).buffer.map (·.id.seq) = some 65535 ∧
    ((run .completion (on { q with nextSeq := 65534, buffer := some (oldClose .pending) })).queue 0).pending =
      some ⟨.batchFull, .buffer, true⟩ ∧
    ((run .completion (on { q with nextSeq := 65534, buffer := some (oldClose .pending), pending := some ⟨.manual, .buffer, true⟩ })).queue 0).full =
      true := by
  decide +kernel

theorem witness_CompletionMakesRecord_carriesOn :
    let s := inFlight (withQueue up { up.queue 0 with buffer := some (oldClose .pending), pending := some ⟨.manual, .buffer, true⟩ })
      (.live 0) work
    let t := run .completion s
    ((s.queue 0).buffer ≠ none ∧ (s.queue 0).nextSeq ≠ 65534) ∧
    ((t.queue 0).batch, (t.queue 0).nextSeq) = ((s.queue 0).batch, (s.queue 0).nextSeq + 1) ∧
    (t.queue 0).pending = some ⟨.manual, .buffer, true⟩ ∧ (t.queue 0).buffer = some (oldClose .pending) ∧
    (t.at? 0).map (·.state) = some .pending ∧ (t.account 0).totals.saleCount = (s.account 0).totals.saleCount + 1 := by
  decide +kernel

theorem witness_CompletionCloses_item :
    let s := inFlight (withQueue up { up.queue 0 with pending := some ⟨.manual, .wrap, false⟩ }) (.live 0) work
    let t := run .completion s
    (t.at? 0).map (fun rec => (rec.id, rec.state)) = some (⟨0, 1, (s.queue 0).nextSeq⟩, .pending) ∧
    (t.queue 0).live.bottom = 1 ∧ (t.queue 0).buffer.map (fun c => (c.totals.saleCount, c.subtotals.length)) = some (1, 1) ∧
    (t.account 0).totals = Totals.zero ∧ (t.term 0).history.length = 1 ∧ t.engine = .idle ∧
    lastCode t (.lane 0) = some .wrapped := by
  decide +kernel

/-! ### Terminals -/

/-- What varies in the ENROLs below. -/
structure EnrolTry where
  lane   : Byte
  route  : Byte
  family : Byte

/-- The payload of an ENROL of terminal 63, fraction digits 3, floor limit 12. -/
def EnrolTry.bytes (e : EnrolTry) : List Byte :=
  [63#8, e.lane, e.route, e.family, 3#8, 0#8, 0#8, 0#8, 0#8, 0#8, 0x12#8]

theorem witness_EnrolMakesActive :
    let code := fun s p => lastCode (run (.enrol .dispatch 1#8 p) s) .dispatch
    let withState := fun st => base.setTerm 63 { till with state := st }
    (hears base .dispatch 11 = true ∧ base.status.part = .running ∧ packedOf [0#8, 0#8, 0#8, 0#8, 0#8, 0x12#8] = some 12 ∧
      base.defined 2 = true ∧ base.defined 3 = false) ∧
    (run (.enrol .dispatch 1#8 (EnrolTry.bytes ⟨3#8, 2#8, 0#8⟩)) base).term 63 = ⟨.active, 3, 2, 0, 3, 12, [], Totals.zero⟩ ∧
    code (withState .held) (EnrolTry.bytes ⟨3#8, 2#8, 0#8⟩) = some .terminalBusy ∧
    code (withState .closing) (EnrolTry.bytes ⟨3#8, 2#8, 0#8⟩) = some .terminalClosing ∧
    code base (EnrolTry.bytes ⟨3#8, 3#8, 0#8⟩) = some .routeUndefined ∧
    code base (EnrolTry.bytes ⟨3#8, 2#8, 7#8⟩) = some .keyUnavailable ∧
    code base (EnrolTry.bytes ⟨4#8, 2#8, 7#8⟩) = some .badParameter ∧
    code base ([63#8, 3#8, 2#8, 0#8, 3#8] ++ List.replicate 6 0xA0#8) = some .badParameter ∧
    code base (64#8 :: List.replicate 10 0xFF#8) = some .terminalRange := by
  decide +kernel

theorem witness_TerminalEdits :
    let heldOn := fun (r : RouteNo) => base.setTerm 0 { till with state := .held, route := r }
    (hears base .service 1 = true ∧ hears base .service 7 = true ∧ (base.term 0).state = .active ∧
      (base.term 63).state = .vacant ∧ (heldOn 3).defined 3 = false) ∧
    ((run (.holdTerminal .service 1#8 [0#8]) base).term 0).state = .held ∧
    ((run (.releaseTerminal .service 1#8 [0#8]) (heldOn 0)).term 0).state = .active ∧
    lastCode (run (.releaseTerminal .service 1#8 [0#8]) (heldOn 3)) .service = some .routeUndefined ∧
    ((run (.setFloor .service 1#8 [0#8, 0#8, 0#8, 0#8, 0#8, 0#8, 9#8]) (heldOn 0)).term 0).floor = 9 ∧
    lastCode (run (.retire .service 1#8 [63#8]) base) .service = some .terminalVacant ∧
    lastCode (run (.setFloor .service 1#8 [0#8, 0#8, 0#8, 0#8, 0#8, 0#8, 9#8]) (base.setTerm 0 { till with state := .closing }))
      .service = some .terminalClosing ∧
    lastCode (run (.holdTerminal .service 1#8 [64#8]) base) .service = some .terminalRange ∧
    lastCode (run (.setFloor .service 1#8 (64#8 :: List.replicate 6 0#8)) base) .service = some .terminalRange ∧
    lastCode (run (.setFloor .service 1#8 (63#8 :: List.replicate 6 0x0A#8)) base) .service = some .badParameter := by
  decide +kernel

theorem witness_MoveAndRetire :
    let noisy := withPast base [past]
    let place := fun (r f : Byte) => [0#8, 3#8, r, f, 0#8]
    let code := fun s p => lastCode (run (.move .dispatch 1#8 p) s) .dispatch
    (hears base .dispatch 5 = true ∧ hears base .dispatch 1 = true ∧ (base.term 0).state = .active) ∧
    ((base.term 0).totals = Totals.zero ∧ (base.term 0).history = [] ∧ base.engine.servesTerminal 0 = false) ∧
    past.disposition = .pending ∧
    (run (.move .dispatch 1#8 (place 2#8 0#8)) base).term 0 = { till with lane := 3, route := 2, fraction := 0 } ∧
    code base (place 3#8 0#8) = some .routeUndefined ∧ code base (place 2#8 7#8) = some .keyUnavailable ∧
    code noisy (place 2#8 0#8) = some .terminalBusy ∧ code base (place 4#8 0#8) = some .badParameter ∧
    code base [64#8, 0#8, 0#8, 0#8, 0#8] = some .terminalRange ∧
    (run (.retire .dispatch 1#8 [0#8]) base).term 0 = Terminal.vacant ∧
    ((run (.retire .dispatch 1#8 [0#8]) noisy).term 0).state = .closing := by
  decide +kernel

/-! ### Key families -/

/-- A KEY LOAD payload of a family: ceiling 1,048,575, low threshold 1,048,575, roll at cut-over. -/
def loadBytes (f : Byte) : List Byte :=
  [f, 0x0F#8, 0xFF#8, 0xFF#8, 0x0F#8, 0xFF#8, 0xFF#8, 1#8] ++ List.replicate 32 0#8 ++ [1#8, 2#8, 3#8]

/-- Family 0 at a state with an operation in progress. -/
def withFamily (s : State) (st : FamilyState) (op : FamilyOp) (prior : Option FamilyRecord) : State :=
  s.setFamily 0 ⟨{ fam.now with state := st }, op, prior⟩

theorem witness_FamilyWorkStarts :
    (∃ raw w, parseLoad (loadBytes 7#8) = some raw ∧ raw.load = some (7, w) ∧ raw.family = 7#8) ∧
    (hears base .service 43 = true ∧ (loadBytes 7#8).length = 43 ∧ (base.family 7).now.state = .empty ∧
      base.engine.servesFamily 7 = false ∧ (base.family 7).now.generation < 65535) ∧
    (hears base .dispatch 1 = true ∧ base.cutover.stage = .idle ∧ (base.family 0).now.state = .active ∧
      base.engine.servesFamily 0 = false ∧ (base.family 0).now.epoch < 65535) ∧
    ((run (.keyLoad .service 1#8 (loadBytes 7#8)) base).family 7).now.state = .loading ∧
    ((run (.rollFamily .dispatch 1#8 [0#8]) base).family 0).op = .gatewayRoll ∧
    ((run (.rollFamily .dispatch 1#8 [0#8]) base).link .dispatch).queue = [.place 0 1#8] :=
  ⟨⟨_, _, rfl, rfl, rfl⟩, by decide +kernel⟩

theorem witness_FamilyWorkStarts_refusals :
    let spent := base.setFamily 0 { fam with now := { fam.now with generation := 65535, epoch := 65535 } }
    let active := { base with cutover := { base.cutover with stage := .closing } }
    let load := fun s p => lastCode (run (.keyLoad .service 1#8 p) s) .service
    let roll := fun s b => lastCode (run (.rollFamily .dispatch 1#8 [b]) s) .dispatch
    load base (loadBytes 8#8) = some .badParameter ∧ load spent (loadBytes 0#8) = some .generationSpent ∧
    load base (0#8 :: List.replicate 42 0#8) = some .badParameter ∧
    roll base 8#8 = some .badParameter ∧ roll active 7#8 = some .cutoverActive ∧ roll base 7#8 = some .keyUnavailable ∧
    roll spent 0#8 = some .epochSpent ∧
    lastCode (run (.retireFamily .service 1#8 [8#8]) base) .service = some .badParameter := by
  decide +kernel

theorem witness_BusyAndRetiredFamilies :
    let busy := withFamily base .loading .load (some fam.now)
    let serving := inFlight base (.live 0) work
    (busy.cutover.stage = .idle ∧ (busy.family 0).now.state = .loading ∧ serving.engine.servesFamily 0 = true) ∧
    lastCode (run (.keyLoad .service 1#8 (loadBytes 0#8)) busy) .service = some .familyBusy ∧
    lastCode (run (.rollFamily .dispatch 1#8 [0#8]) busy) .dispatch = some .familyBusy ∧
    lastCode (run (.retireFamily .service 1#8 [0#8]) serving) .service = some .familyBusy ∧
    (run (.retireFamily .service 1#8 [0#8]) base).family 0 =
      { fam with now := { fam.now with state := .retired, rollAtCutover := false, root := none } } ∧
    lastCode (run (.retireFamily .service 1#8 [0#8]) (withFamily base .retired .none none)) .service = some .done ∧
    lastCode (run (.retireFamily .service 1#8 [7#8]) base) .service = some .keyUnavailable := by
  decide +kernel

theorem witness_BusyAndRetiredFamilies_elsewhere :
    let busy := withFamily base .rolling .cutoverRoll (some fam.now)
    let blank := { busy with status := { busy.status with part := .blank } }
    let rolling := { busy with cutover := { busy.cutover with stage := .rolling, nextFamily := some 0 } }
    (∀ s ∈ [blank, rolling], s.status.part ≠ .setup ∧ (s.family 0).now.state = .rolling ∧
      hears s .service 43 = true ∧ hears s .service 1 = true) ∧
    (∀ s ∈ [blank, rolling], lastCode (run (.keyLoad .service 1#8 (loadBytes 0#8)) s) .service = some .familyBusy ∧
      lastCode (run (.retireFamily .service 1#8 [0#8]) s) .service = some .familyBusy) ∧
    lastCode (run (.retireFamily .service 1#8 [0#8]) (inFlight (withFamily base .retired .none none) (.live 0) work)) .service =
      some .familyBusy := by
  decide +kernel

/-- Family 0 LOADING with a check value. -/
def loading (check : BitVec 24) : State :=
  (withFamily base .loading .load (some fam.now)).setLoad 0 (some ⟨[], check, 5, 5, false⟩)

theorem witness_FamilyWorkCompletes_load :
    let root := Config.unwrapRoot Config.transportKey []
    let good := loading (Config.rootCheck root)
    let bad := loading (Config.rootCheck root + 1#24)
    (good.supply = .on ∧ (good.family 0).op = .load ∧ (good.family 0).prior = some fam.now) ∧
    (∃ w, Vec.get good.keys.loads 0 = some w ∧ Config.rootCheck (Config.unwrapRoot Config.transportKey w.wrapped) = w.check) ∧
    ∃ w, Vec.get bad.keys.loads 0 = some w ∧ Config.rootCheck (Config.unwrapRoot Config.transportKey w.wrapped) ≠ w.check := by
  refine ⟨⟨rfl, ?_, ?_⟩, ⟨⟨[], Config.rootCheck (Config.unwrapRoot Config.transportKey []), 5, 5, false⟩, ?_, rfl⟩,
    ⟨⟨[], Config.rootCheck (Config.unwrapRoot Config.transportKey []) + 1#24, 5, 5, false⟩, ?_, ?_⟩⟩
  · simp [loading, withFamily, State.family, State.setFamily, State.setLoad]
  · simp [loading, withFamily, State.family, State.setFamily, State.setLoad]
  · simp [loading, State.setLoad]
  · simp [loading, State.setLoad]
  · simp

theorem witness_FamilyWorkCompletes_roll :
    let gateway := withFamily base .rolling .gatewayRoll (some fam.now)
    let cut := withFamily base .rolling .cutoverRoll (some fam.now)
    (gateway.family 0).op = .gatewayRoll ∧ (cut.family 0).op = .cutoverRoll ∧
    ((run (.rollCompletion 0) gateway).family 0).now.epoch = 1 ∧ ((run (.rollCompletion 0) gateway).family 0).op = .none ∧
    (run (.rollCompletion 0) cut).cutover.nextFamily = some 1 ∧
    (run (.rollCompletion 7) (cut.setFamily 7 (cut.family 0))).cutover.stage = .idle := by
  decide +kernel

/-! ### Routes -/

/-- Route 0 UP with some dispatch fields. -/
def upWith (s : State) (e : Nat) (offered : List Identity) (timer : AckTimer) (stream : Option OpenStream) : State :=
  s.setRoute 0 ⟨.up, e, offered, 0, timer, stream⟩

/-- What varies in the streams below. -/
structure StreamTry where
  current : Nat
  renew   : Bool

/-- A stream on the dispatch link. -/
def StreamTry.opened (t : StreamTry) : Option OpenStream := some ⟨2, t.current, t.renew, .dispatch, 40#8⟩

/-- A stream on the dispatch link. -/
def stream (current : Nat) (renew : Bool) : Option OpenStream := StreamTry.opened ⟨current, renew⟩

/-- Route 0 with its live record in slot 0 OFFERED. -/
def offered1 : State := upWith (withRecord .offered [{ past with disposition := .offered }]) 5 [⟨0, 1, 1⟩] (.running 5) none

theorem witness_RouteUpAndDown :
    let streamed := upWith base 5 [] .stopped (stream 2 false)
    (hears base .dispatch 1 = true ∧ base.config 0 = some cfg ∧ (base.route 0).state ≠ .up) ∧
    ((up.route 0).state = .up ∧ (up.route 0).stream = none) ∧ (streamed.route 0).stream = stream 2 false ∧
    (run (.routeUp .dispatch 1#8 [0#8]) base).route 0 = ⟨.up, 5, [], 0, .stopped, none⟩ ∧
    (run (.routeDown .dispatch 1#8 [0#8]) base).route 0 = ⟨.down .command, 5, [], 0, .stopped, none⟩ ∧
    ((run (.routeDown .dispatch 1#8 [0#8]) streamed).link .dispatch).queue =
      [.run (.streamEnd 40#8 0 .routeDown) [], .run (.answer 1#8 .done .bare) []] ∧
    (run (.routeDown .dispatch 1#8 [0#8]) offered1).at? 0 = some (recordOf .live .pending 1 7) := by
  decide +kernel

theorem witness_RefusesRoute :
    let code := fun c => lastCode (run c base) .dispatch
    (hears base .dispatch 1 = true ∧ hears base .dispatch 2 = true ∧ hears base .dispatch 3 = true ∧
      hears base .dispatch 5 = true ∧ base.status.part = .running ∧ base.defined 3 = false) ∧
    (∀ c ∈ [Instr.routeUp, .routeDown, .pullOne, .streamClose, .ackOldest, .closeBatch],
      code (c .dispatch 1#8 [4#8]) = some .badParameter ∧ code (c .dispatch 1#8 [3#8]) = some .routeUndefined) ∧
    code (.pullBlock .dispatch 1#8 [4#8, 1#8]) = some .badParameter ∧
    code (.pullBlock .dispatch 1#8 [3#8, 1#8]) = some .routeUndefined ∧
    code (.streamOpen .dispatch 1#8 [4#8, 1#8, 2#8]) = some .badParameter ∧
    code (.streamOpen .dispatch 1#8 [3#8, 1#8, 2#8]) = some .routeUndefined ∧
    (∀ c ∈ [Instr.ackOne, .ackThrough],
      code (c .dispatch 1#8 [4#8, 0#8, 1#8, 0#8, 1#8]) = some .badParameter ∧
      code (c .dispatch 1#8 [3#8, 0#8, 1#8, 0#8, 1#8]) = some .routeUndefined) := by
  decide +kernel

theorem witness_RewindReturnsOffered :
    offered1.at? 0 = some (recordOf .live .offered 1 7) ∧ 0 ∈ offered1.slotsOf 0 ∧
    offered1.at? 1 = none ∧
    ((offered1.rewind 0).term 0).history = [past] ∧ ((offered1.rewind 0).queue 0).live = ⟨0, 0, 1⟩ ∧
    ((withQueue up { up.queue 0 with buffer := some (oldClose .offered) }).rewind 0).queue 0 =
      { up.queue 0 with buffer := some (oldClose .pending) } := by
  decide +kernel

/-- Route 0 UP with a live head and a store head. -/
def twoHeads (e : Nat) : State :=
  let s := upWith base e [] .stopped none
  { s with
    qm := { s.qm with
      slots := [(0, recordOf .live .pending 1 7), (64, recordOf .store .pending 2 8)]
      queues := Vec.put s.qm.queues 0 { s.queue 0 with nextSeq := 3, live := ⟨0, 0, 1⟩, store := ⟨0, 0, 1⟩ } } }

theorem witness_SelectionOrder :
    let closing := withQueue up { up.queue 0 with buffer := some (oldClose .pending) }
    (closing.closeHead 0 = some (oldClose .pending)) ∧
    ((twoHeads 2).closeHead 0 = none ∧ (twoHeads 2).liveHead 0 = some (0, recordOf .live .pending 1 7) ∧
      (twoHeads 2).storeHead 0 = some (64, recordOf .store .pending 2 8)) ∧
    ((withRecord .pending []).storeHead 0 = none ∧ (withRecord .pending []).liveHead 0 = some (0, recordOf .live .pending 1 7)) ∧
    (up.liveHead 0 = none ∧ up.storeHead 0 = none) ∧
    (twoHeads 2).choose 0 cfg = some (.data 64 (recordOf .store .pending 2 8), 5) ∧
    (twoHeads 3).choose 0 cfg = some (.data 0 (recordOf .live .pending 1 7), 1) := by
  decide +kernel

theorem witness_SelectionOrder_heads :
    let closing := fun s => withQueue s { s.queue 0 with buffer := some { oldClose .pending with id := ⟨0, 1, 9⟩ } }
    let pool := { withQueue up { up.queue 0 with store := ⟨5, 5, 5⟩, overflow := [96, 97] } with
      qm := { (withQueue up { up.queue 0 with store := ⟨5, 5, 5⟩, overflow := [96, 97] }).qm with
        slots := [(96, recordOf .store .offered 1 7), (97, recordOf .store .pending 2 8)] } }
    (closing (twoHeads 5)).closeHead 0 = none ∧ (closing offered1).closeHead 0 = some { oldClose .pending with id := ⟨0, 1, 9⟩ } ∧
    (withQueue up { up.queue 0 with buffer := some (oldClose .offered) }).closeHead 0 = none ∧
    offered1.liveHead 0 = none ∧ pool.storeHead 0 = some (97, recordOf .store .pending 2 8) ∧ pool.liveHead 0 = none ∧
    pool.slotsOf 0 = [96, 97] ∧ (twoHeads 5).slotsOf 0 = [0, 64] ∧ (livePlace 1).slot 17 = 17 ∧
    (up.storePlace 2).slot 16 = 80 := by
  decide +kernel

theorem witness_PullOneOffers :
    let full := upWith (twoHeads 5) 5 [⟨0, 9, 1⟩, ⟨0, 9, 2⟩] (.running 3) none
    let closing := withQueue up { up.queue 0 with buffer := some (oldClose .pending) }
    let pull := fun s => run (.pullOne .dispatch 1#8 [0#8]) s
    (hears base .dispatch 1 = true ∧ base.config 0 = some cfg ∧ (base.route 0).state ≠ .up ∧ (up.route 0).state = .up) ∧
    (cfg.window ≤ (full.route 0).offered.length ∧ up.choose 0 cfg = none) ∧
    (closing.choose 0 cfg = some (.close (oldClose .pending), 5)) ∧
    lastCode (pull base) .dispatch = some .routeDown ∧ lastCode (pull full) .dispatch = some .windowFull ∧
    lastCode (pull up) .dispatch = some .empty ∧
    (pull (twoHeads 2)).route 0 = ⟨.up, 5, [⟨0, 1, 2⟩], 1, .running 5, none⟩ ∧
    ((pull closing).queue 0).buffer = some { oldClose .offered with offers := 1 } := by
  decide +kernel

theorem witness_PullOneOffers_reports :
    let s := upWith (withRecord .pending [past]) 5 [] .stopped none
    let t := run (.pullOne .dispatch 1#8 [0#8]) s
    (hears s .dispatch 1 = true ∧ s.choose 0 cfg = some (.data 0 (recordOf .live .pending 1 7), 5)) ∧
    (t.term 0).history = [{ past with disposition := .offered }] ∧ (t.queue 0).live = ⟨0, 1, 1⟩ ∧
    (t.at? 0).map (·.offers) = some 1 ∧ (t.term 1) = s.term 1 ∧
    ((run .completion (inFlight offered1 (.live 1) work)).queue 0).live = ⟨0, 1, 2⟩ := by
  decide +kernel

theorem witness_PullBlockRun :
    let pull := fun n s => run (.pullBlock .dispatch 1#8 [0#8, n]) s
    (hears base .dispatch 2 = true ∧ (twoHeads 5).config 0 = some cfg ∧ ((twoHeads 5).route 0).state = .up) ∧
    lastCode (pull 1#8 base) .dispatch = some .routeDown ∧
    ((pull 0#8 (twoHeads 5)).route 0).offered = [⟨0, 1, 1⟩] ∧
    ((pull 255#8 (twoHeads 5)).route 0).offered = [⟨0, 1, 1⟩, ⟨0, 1, 2⟩] ∧
    ((pull 255#8 (twoHeads 5)).link .dispatch).queue.length = 1 ∧
    ((pull 4#8 up).link .dispatch).queue = [.run (.blockEnd 1#8 0 0 .empty) []] := by
  decide +kernel

theorem witness_StreamsOpenAndClose :
    (hears up .dispatch 3 = true ∧ hears up .dispatch 1 = true ∧ 2 ≤ (2#8 : Byte).toNat ∧ (base.route 0).state ≠ .up) ∧
    ((run (.streamOpen .dispatch 9#8 [0#8, 0#8, 1#8]) up).route 0).stream = some ⟨1, 1, true, .dispatch, 9#8⟩ ∧
    lastCode (run (.streamOpen .dispatch 9#8 [0#8, 0#8, 2#8]) up) .dispatch = some .badParameter ∧
    lastCode (run (.streamOpen .dispatch 9#8 [0#8, 0#8, 1#8]) base) .dispatch = some .routeDown ∧
    ((run (.streamClose .dispatch 9#8 [0#8]) (upWith base 5 [] .stopped (stream 2 false))).route 0).stream = none := by
  decide +kernel

/-- The two-headed route with a stream open on the dispatch link. -/
def streaming (current : Nat) (renew : Bool) : State := upWith (twoHeads 5) 5 [] .stopped (stream current renew)

theorem witness_TransmitterTakesNext :
    let waiting := base.setLink .dispatch { Link.start with queue := answers 2 }
    (∃ m more rest, (waiting.link .dispatch).queue = .run m more :: rest) ∧
    ((base.link .dispatch).queue = [] ∧ base.nextStream .dispatch = none) ∧
    ((streaming 2 false).nextStream .dispatch = some 0 ∧ ((streaming 2 false).link .dispatch).sending = none ∧
      ((streaming 2 false).offer 0 cfg 40#8).isSome = true) ∧
    ((run (.transmitComplete .dispatch) waiting).link .dispatch).queue = answers 1 ∧
    ((run (.streamOffer .dispatch) (streaming 2 false)).route 0).stream = stream 1 false ∧
    ((run (.streamOffer .dispatch) (streaming 1 true)).route 0).stream = stream 2 true ∧
    ((run (.streamOffer .dispatch) (streaming 1 false)).route 0).stream = none ∧
    ((run (.streamOffer .dispatch) (streaming 1 false)).link .dispatch).queue = [.run (.streamEnd 40#8 0 .count) []] :=
  ⟨⟨_, _, _, rfl⟩, by decide +kernel⟩

theorem witness_TransmitterTakesNext_order :
    let sending_ := (streaming 2 false).setLink .dispatch
      { Link.start with sending := some ⟨frameBadAnswer, []⟩, queue := [.place 0 3#8] }
    let both := { (streaming 2 false).setRoute 2 ⟨.up, 5, [], 0, .stopped, stream 2 false⟩ with
      qm := { (streaming 2 false).qm with
        queues := Vec.put (streaming 2 false).qm.queues 2 { up.queue 2 with buffer := some { oldClose .pending with id := ⟨2, 9, 2⟩ } } } }
    ((sending_.nextStream .dispatch = some 0 ∧ (sending_.link .dispatch).sending ≠ none) ∧
      (sending_.offer 0 cfg 40#8).isSome = true) ∧
    ((run (.transmitComplete .dispatch) sending_).route 0).stream = stream 1 false ∧
    ((run (.transmitComplete .dispatch) sending_).link .dispatch).queue = [.place 0 3#8] ∧
    ((run (.transmitComplete .dispatch) sending_).link .dispatch).pointer = 0 ∧
    both.nextStream .dispatch = some 0 ∧
    (both.setLink .dispatch { Link.start with pointer := 0 }).nextStream .dispatch = some 2 ∧
    (both.setLink .dispatch { Link.start with pointer := 2 }).nextStream .dispatch = some 0 ∧ both.nextStream .service = none := by
  decide +kernel

theorem witness_AcknowledgementsTaken :
    (hears offered1 .dispatch 5 = true ∧ hears offered1 .dispatch 1 = true ∧ offered1.config 0 = some cfg ∧
      offered1.isOffered 0 ⟨0, 1, 1⟩ = true ∧ up.isOffered 0 ⟨0, 1, 1⟩ = false ∧ (up.route 0).offered = [] ∧
      (offered1.route 0).offered = [⟨0, 1, 1⟩]) ∧
    ((run (.ackOne .dispatch 1#8 [0#8, 0#8, 1#8, 0#8, 1#8]) offered1).route 0).offered = [] ∧
    lastCode (run (.ackOne .dispatch 1#8 [0#8, 0#8, 1#8, 0#8, 2#8]) offered1) .dispatch = some .notOffered ∧
    lastCode (run (.ackOldest .dispatch 1#8 [0#8]) up) .dispatch = some .notOffered ∧
    ((run (.ackOldest .dispatch 1#8 [0#8]) offered1).route 0).timer = .stopped ∧
    ((run (.ackThrough .dispatch 1#8 [0#8, 0#8, 1#8, 0#8, 0#8]) offered1).route 0).offered = [⟨0, 1, 1⟩] ∧
    ((run (.ackThrough .dispatch 1#8 [0#8, 0#8, 1#8, 0#8, 1#8]) offered1).route 0).offered = [] := by
  decide +kernel

theorem witness_AcknowledgementsTaken_ages :
    atOrBelow 3 2 9 3 0 = true ∧ atOrBelow 3 3 5 3 5 = true ∧ atOrBelow 3 3 6 3 5 = false ∧ atOrBelow 1 65535 9 1 0 = true ∧
    atOrBelow 3 3 1 4 65535 = false ∧ atOrBelow 3 3 1 65535 65535 = false ∧ atOrBelow 65535 65535 4 65535 4 = true ∧
    atOrBelow 65535 65535 4 0 4 = true := by
  decide

theorem witness_AcknowledgementsTaken_close :
    let s := withQueue up { up.queue 0 with buffer := some (oldClose .offered) }
    (s.slotOf 0 ⟨0, 9, 2⟩ = none ∧ s.isOffered 0 ⟨0, 9, 2⟩ = true ∧ s.isOffered 0 ⟨0, 9, 3⟩ = false) ∧
    (withQueue up { up.queue 0 with buffer := some (oldClose .pending) }).isOffered 0 ⟨0, 9, 2⟩ = false ∧
    offered1.slotOf 0 ⟨0, 1, 1⟩ = some 0 := by
  decide +kernel

/-- Route 0 with two OFFERED records in its live ring and one in the overflow part. -/
def offered3 : State :=
  let s := upWith up 5 [⟨0, 1, 1⟩, ⟨0, 1, 2⟩, ⟨0, 1, 3⟩] (.running 2) none
  { s with
    qm :=
      { slots := [(0, recordOf .live .offered 1 7), (1, recordOf .live .offered 2 8), (96, recordOf .store .offered 3 9)]
        poolFree := [97]
        queues := Vec.put s.qm.queues 0
          { s.queue 0 with nextSeq := 4, live := ⟨0, 2, 2⟩, store := ⟨5, 5, 5⟩, overflow := [96] } } }

/-- Route 0 with two OFFERED records in its store ring. -/
def offeredStore : State :=
  let s := upWith up 5 [⟨0, 1, 1⟩, ⟨0, 1, 2⟩] (.running 2) none
  { s with
    qm := { s.qm with
      slots := [(64, recordOf .store .offered 1 7), (65, recordOf .store .offered 2 8)]
      queues := Vec.put s.qm.queues 0 { s.queue 0 with nextSeq := 3, store := ⟨0, 2, 2⟩ } } }

theorem witness_AcknowledgementEffects :
    (offered3.slotOf 0 ⟨0, 1, 3⟩ = some 96 ∧ 96 ∈ (offered3.queue 0).overflow) ∧
    (offered3.slotOf 0 ⟨0, 1, 2⟩ = some 1 ∧ (livePlace 0).slot (offered3.queue 0).live.top ≠ 1) ∧
    (offeredStore.slotOf 0 ⟨0, 1, 2⟩ = some 65 ∧
      (offeredStore.storePlace 0).slot (offeredStore.queue 0).store.top ≠ 65) ∧
    (offered3.acknowledge 0 cfg ⟨0, 1, 3⟩).qm.poolFree = [97, 96] ∧
    ((offered3.acknowledge 0 cfg ⟨0, 1, 3⟩).route 0).timer = .running 2 ∧
    ((offered3.acknowledge 0 cfg ⟨0, 1, 1⟩).route 0).timer = .running 5 ∧
    ((offered3.acknowledge 0 cfg ⟨0, 1, 1⟩).queue 0).live = ⟨1, 2, 2⟩ ∧
    ((offered3.acknowledgeAll 0 cfg [⟨0, 1, 2⟩, ⟨0, 1, 1⟩]).queue 0).live = ⟨2, 2, 2⟩ := by
  decide +kernel

theorem witness_AcknowledgementEffects_top :
    (offered3.slotOf 0 ⟨0, 1, 1⟩ = some 0 ∧ (livePlace 0).slot (offered3.queue 0).live.top = 0 ∧
      0 ∉ (offered3.queue 0).overflow ∧ offered3.at? 0 = some (recordOf .live .offered 1 7)) ∧
    (offeredStore.slotOf 0 ⟨0, 1, 1⟩ = some 64 ∧ (offeredStore.storePlace 0).slot (offeredStore.queue 0).store.top = 64) ∧
    ((offered3.acknowledge 0 cfg ⟨0, 1, 1⟩).at? 0 = none ∧
      (offered3.acknowledge 0 cfg ⟨0, 1, 1⟩).at? 1 = some (recordOf .live .offered 2 8)) ∧
    ((offeredStore.acknowledgeAll 0 cfg [⟨0, 1, 2⟩, ⟨0, 1, 1⟩]).queue 0).store = ⟨2, 2, 2⟩ ∧
    (offeredStore.acknowledgeAll 0 cfg [⟨0, 1, 2⟩, ⟨0, 1, 1⟩]).qm.slots = [] := by
  decide +kernel

theorem witness_AcknowledgementEffects_reports :
    let closing := offered1.setTerm 0 { till with state := .closing, history := [{ past with disposition := .offered }] }
    let owing := offered1.setTerm 0
      { till with state := .closing, history := [{ past with disposition := .offered }], totals := { Totals.zero with saleCount := 1 } }
    ((offered1.acknowledge 0 cfg ⟨0, 1, 1⟩).term 0).history = [{ past with disposition := .acked }] ∧
    (closing.acknowledge 0 cfg ⟨0, 1, 1⟩).term 0 = Terminal.vacant ∧
    ((owing.acknowledge 0 cfg ⟨0, 1, 1⟩).term 0).state = .closing ∧
    ((inFlight closing (.live 1) work).acknowledge 0 cfg ⟨0, 1, 1⟩).term 0 =
      { till with state := .closing, history := [{ past with disposition := .acked }] } := by
  decide +kernel

theorem witness_AcknowledgementEffects_close :
    let held := fun p => upWith (withQueue up { up.queue 0 with buffer := some (oldClose .offered), pending := p }) 5
      [⟨0, 9, 2⟩] (.running 2) none
    let waits := held (some ⟨.manual, .buffer, true⟩)
    let acked := fun (s : State) => (s.acknowledge 0 cfg ⟨0, 9, 2⟩).queue 0
    ((held none).slotOf 0 ⟨0, 9, 2⟩ = none ∧ ((held none).queue 0).buffer = some (oldClose .offered) ∧
      (oldClose .offered).id = ⟨0, 9, 2⟩ ∧ waits.engine.servesRoute 0 = false ∧
      (inFlight waits (.live 0) work).engine.servesRoute 0 = true) ∧
    (acked (held none)).buffer = none ∧ ((held none).acknowledge 0 cfg ⟨0, 9, 2⟩).route 0 = ⟨.up, 5, [], 0, .stopped, none⟩ ∧
    (acked (held (some ⟨.manual, .wrap, false⟩))).pending = some ⟨.manual, .wrap, false⟩ ∧
    (acked waits).buffer.map (·.reason) = some .deferred ∧ (acked waits).pending = none ∧
    (acked (inFlight waits (.live 0) work)).pending = some ⟨.manual, .wrap, true⟩ := by
  decide +kernel

theorem test_TimersExpireInRouteOrder :
    let s := (upWith up 5 [⟨0, 1, 1⟩] (.running 0) none).setRoute 2 ⟨.up, 5, [⟨2, 1, 1⟩], 0, .running 0, none⟩
    ((0 : RouteNo) < 2 ∧ (s.route 0).timer = .running 0 ∧ (s.route 2).timer = .running 0) ∧ run (.ackTimerExpiry 2) s = s ∧
    (run (.ackTimerExpiry 2) (run (.ackTimerExpiry 0) s)).status.log =
      [⟨.ackTimeout, ⟨0, 0⟩, 0⟩, ⟨.ackTimeout, ⟨0, 0⟩, 2⟩] := by
  decide +kernel

theorem witness_TimerExpiryTakesDown :
    let s := upWith (withRecord .offered []) 5 [⟨0, 1, 1⟩] (.running 0) (stream 2 true)
    (s.supply = .on ∧ (s.route 0).timer = .running 0) ∧
    (run (.ackTimerExpiry 0) s).route 0 = ⟨.down .timeout, 5, [], 0, .stopped, none⟩ ∧
    holdsFlag (run (.ackTimerExpiry 0) s).status.flags .ackTimeout = true ∧
    (run (.ackTimerExpiry 0) s).status.log = [⟨.ackTimeout, ⟨0, 0⟩, 0⟩] ∧
    run (.ackTimerExpiry 0) offered1 = offered1 := by
  decide +kernel

/-! ### Clock, cut-over and closes -/

/-- The cut-over armed for 00:01, the clock at a second of day 3. -/
def armed (sec : Nat) : State :=
  { up with cutover := { up.cutover with clock := ⟨3, sec⟩, setting := ⟨.hour 0, 1, true⟩ } }

theorem witness_TickAdvancesClock :
    let at_ := fun d n => { up with cutover := { up.cutover with clock := ⟨d, n⟩ } }
    ((at_ 3 86398).time.sec < 86399 ∧ (at_ 65534 86399).time.day < 65535 ∧ (at_ 65535 86399).time = ⟨65535, 86399⟩) ∧
    (run .tick (at_ 65535 86399)).time = ⟨0, 0⟩ ∧ (run .tick (at_ 65534 86399)).time = ⟨65535, 0⟩ ∧
    (run .tick { at_ 3 7 with supply := .off }).time = ⟨3, 8⟩ ∧
    ((run .tick offered1).route 0).timer = .running 4 ∧ ((run .tick { offered1 with supply := .held }).route 0).timer = .running 5 ∧
    ((run .tick (up.setRoute 0 { up.route 0 with timer := .running 0 })).route 0).timer = .running 0 ∧
    ((run .tick up).route 0).timer = .stopped := by
  decide +kernel

theorem witness_WarningAndMatch :
    let due := { armed 60 with cutover := { (armed 60).cutover with matchDue := some ⟨3, 60⟩ } }
    ((armed 59).supply = .on ∧ (armed 59).status.part = .running ∧ (armed 59).cutover.unset = false ∧
      (armed 59).cutover.setting = ⟨.hour 0, 1, true⟩ ∧ (armed 59).cutover.stage = .idle ∧ (armed 59).time.sec + 1 < 86400) ∧
    (run .tick (armed 59)).cutover.matchDue = some ⟨3, 60⟩ ∧ (run .tick (armed 58)).cutover.matchDue = none ∧
    (run .tick (armed 86399)).cutover.nearDue = true ∧ (run .tick (armed 0)).cutover.nearDue = false ∧
    (due.cutover.nearDue = false ∧ due.engine = .idle) ∧ (run .cutoverMatch due).cutover.stage = .closing ∧
    (run .cutoverMatch (inFlight due (.live 0) work)).cutover.stage = .waiting ∧
    (run .nearWarning (run .tick (armed 86399))).cutover.near = true ∧
    holdsFlag (run .nearWarning (run .tick (armed 86399))).status.flags .cutoverNear = true := by
  decide +kernel

/-- A state with a warning due whose row has not been taken. -/
def warned (s : State) : State := { s with cutover := { s.cutover with nearDue := true } }

theorem witness_warningDueAtAnotherCommand :
    let raised := fun t : State => (t.cutover.near, t.cutover.nearDue, holdsFlag t.status.flags .cutoverNear)
    let due := warned { armed 60 with cutover := { (armed 60).cutover with matchDue := some ⟨3, 60⟩ } }
    ((warned base).cutover.nearDue = true ∧ hears (warned base) .dispatch 5 = true ∧ hears (warned base) .dispatch 3 = true ∧
      hears (warned base) .service 2 = true) ∧
    raised (run (.setClock .dispatch 1#8 [0#8, 9#8, 1#8, 0x51#8, 0x7F#8]) (warned base)) = (false, false, true) ∧
    raised (run (.setCutover .dispatch 1#8 [23#8, 59#8, 1#8]) (warned base)) = (false, false, true) ∧
    raised (run (.setupBegin .service 1#8 [1#8, 1#8]) (warned base)) = (false, false, true) ∧
    raised (run (.setClock .dispatch 1#8 [0#8, 9#8, 1#8, 0x51#8, 0x80#8]) (warned base)) = (false, true, false) ∧
    raised (run .cutoverMatch due) = (false, false, true) ∧ (run .cutoverMatch due).cutover.stage = .closing := by
  decide +kernel

/-- The cut-over armed for a setting, the clock at a second of day 3. -/
def armedAt (c : CutoverSetting) (sec : Nat) : State :=
  { up with cutover := { up.cutover with clock := ⟨3, sec⟩, setting := c } }

theorem witness_WarningAndMatch_any :
    let tick := fun c sec => (run .tick (armedAt c sec)).cutover
    (CutoverArmed (armedAt ⟨.any, 0, true⟩ 86399) ∧ FallsOn ⟨.any, 59, true⟩ 86340 ∧ ¬ FallsOn ⟨.any, 59, true⟩ 86341 ∧
      FallsOn ⟨.hour 23, 59, true⟩ 86340 ∧ ¬ FallsOn ⟨.hour 23, 59, true⟩ 82740) ∧
    (tick ⟨.any, 0, true⟩ 86399).matchDue = some ⟨4, 0⟩ ∧ (tick ⟨.hour 0, 0, true⟩ 86399).matchDue = some ⟨4, 0⟩ ∧
    (tick ⟨.hour 0, 0, true⟩ 86339).nearDue = true ∧ (tick ⟨.any, 0, true⟩ 3539).nearDue = true ∧
    (tick ⟨.any, 1, true⟩ 86399).nearDue = true ∧ (tick ⟨.any, 1, true⟩ 3659).matchDue = some ⟨3, 3660⟩ ∧
    (tick ⟨.hour 0, 0, false⟩ 86399).matchDue = none := by
  refine ⟨⟨⟨?_, ?_, ?_, ?_⟩, ?_, ?_, ?_, ?_⟩, ?_⟩ <;> first | decide +kernel | simp [FallsOn]

theorem witness_WarningAndMatch_unarmed :
    let due := fun s => ((run .tick s).cutover.matchDue, (run .tick s).cutover.nearDue)
    let s := armedAt ⟨.any, 0, true⟩ 86399
    due s = (some ⟨4, 0⟩, false) ∧ due { s with status := { s.status with part := .blank } } = (none, false) ∧
    due { s with cutover := { s.cutover with unset := true } } = (none, false) ∧
    due { s with cutover := { s.cutover with stage := .rolling } } = (none, false) ∧
    due { armed 86399 with cutover := { (armed 86399).cutover with setting := ⟨.hour 0, 1, false⟩ } } = (none, false) := by
  decide +kernel

theorem witness_ClosesRequested :
    let on := fun q => withQueue up q
    let q := up.queue 0
    let manual : ClosePending := ⟨.manual, .buffer, true⟩
    let outcome := fun s => (State.requestClose s 0 .manual).2
    (hears up .dispatch 1 = true ∧ up.defined 0 = true ∧ up.cutover.stage = .idle ∧ up.engine.servesRoute 0 = false) ∧
    outcome (on { q with pending := some manual }) = .joined .manual .buffer ∧
    outcome (on { q with buffer := some (oldClose .pending) }) = .waits .buffer ∧
    outcome (inFlight up (.live 0) work) = .waits .wrap ∧ outcome up = .performed ⟨0, 1, 1⟩ ∧
    ((run (.closeBatch .dispatch 1#8 [0#8]) up).queue 0).batch = 2 ∧
    lastCode (run (.closeBatch .dispatch 1#8 [0#8]) { up with cutover := { up.cutover with stage := .closing } }) .dispatch =
      some .cutoverActive ∧
    ((run (.deferredClose 0) (on { q with pending := some manual })).queue 0).buffer.map (·.reason) = some .deferred ∧
    ((run (.deferredClose 0) (inFlight (on { q with pending := some manual }) (.live 0) work)).queue 0).pending =
      some { manual with wait := .wrap } := by
  decide +kernel

theorem test_ClosePerformed :
    let s := (withRecord .pending [past]).setTerm 0 { till with totals := { Totals.zero with sale := 100, saleCount := 1 } }
    ((s.performClose 0 .manual).queue 0).buffer.map (·.subtotals) = some [(0, { Totals.zero with sale := 100, saleCount := 1 })] ∧
    ((s.performClose 0 .manual).term 0).totals = Totals.zero ∧ ((s.performClose 0 .manual).queue 0).nextSeq = 1 := by
  decide +kernel

theorem test_ClosePerformed_releases :
    let closing := fun hs => (up.setTerm 0
      { till with state := .closing, history := hs, totals := { Totals.zero with sale := 100, saleCount := 1 } })
    ((closing [{ past with disposition := .acked }]).performClose 0 .manual).term 0 = Terminal.vacant ∧
    ((closing [past]).performClose 0 .manual).term 0 = { till with state := .closing, history := [past] } := by
  decide +kernel

/-- What varies in the cut-overs below. -/
structure StageTry where
  stage  : CutoverStage
  route  : Option RouteNo
  family : Option FamilyNo

/-- A state with its cut-over at a stage. -/
def StageTry.on (t : StageTry) (s : State) : State :=
  { s with
    cutover := { s.cutover with stage := t.stage, matchTime := some ⟨3, 60⟩, nextRoute := t.route, nextFamily := t.family } }

theorem witness_CutoverProcedure :
    let rolling := fun f => StageTry.on ⟨.rolling, none, some f⟩ up
    let spent := (rolling 0).setFamily 0 { fam with now := { fam.now with epoch := 65535 } }
    ((StageTry.on ⟨.waiting, some 0, some 0⟩ up).engine = .idle ∧ up.defined 0 = true ∧ up.defined 1 = false ∧ up.defined 2 = true ∧
      up.defined 3 = false) ∧
    (run .cutoverClosingStart (StageTry.on ⟨.waiting, some 0, some 0⟩ up)).cutover.stage = .closing ∧
    (run .cutoverRouteClose (StageTry.on ⟨.closing, some 0, some 0⟩ up)).cutover.nextRoute = some 2 ∧
    (run .cutoverRouteClose (StageTry.on ⟨.closing, some 2, some 0⟩ up)).cutover.stage = .rolling ∧
    ((run .cutoverRouteClose (StageTry.on ⟨.closing, some 2, some 0⟩ up)).queue 2).batch = 2 ∧
    ((run .cutoverFamilyRoll (rolling 0)).family 0).op = .cutoverRoll ∧
    (run .cutoverFamilyRoll (rolling 1)).cutover.nextFamily = some 2 ∧
    (run .cutoverFamilyRoll (rolling 7)).cutover.stage = .idle ∧
    (run .cutoverFamilyRoll spent).status.log = [⟨.rollRefused, ⟨0, 0⟩, 0⟩] := by
  decide +kernel

theorem witness_ClockAndSettingWritten :
    (hears base .dispatch 5 = true ∧ hears base .dispatch 3 = true ∧ base.status.part = .running ∧ base.cutover.nearDue = false ∧
      numberOf [1#8, 0x51#8, 0x7F#8] = 86399 ∧ numberOf [1#8, 0x51#8, 0x80#8] = 86400) ∧
    (run (.setClock .dispatch 1#8 [0#8, 9#8, 1#8, 0x51#8, 0x7F#8]) base).time = ⟨9, 86399⟩ ∧
    lastCode (run (.setClock .dispatch 1#8 [0#8, 9#8, 1#8, 0x51#8, 0x80#8]) base) .dispatch = some .badParameter ∧
    (run (.setCutover .dispatch 1#8 [23#8, 59#8, 1#8]) base).cutover.setting = ⟨.hour 23, 59, true⟩ ∧
    (run (.setCutover .dispatch 1#8 [255#8, 0#8, 0#8]) base).cutover.setting = ⟨.any, 0, false⟩ ∧
    lastCode (run (.setCutover .dispatch 1#8 [24#8, 0#8, 0#8]) base) .dispatch = some .badParameter ∧
    lastCode (run (.setCutover .dispatch 1#8 [254#8, 0#8, 0#8]) base) .dispatch = some .badParameter ∧
    lastCode (run (.setCutover .dispatch 1#8 [255#8, 60#8, 0#8]) base) .dispatch = some .badParameter ∧
    lastCode (run (.setCutover .dispatch 1#8 [0#8, 0#8, 2#8]) base) .dispatch = some .badParameter := by
  decide +kernel

/-! ### Setup, status and retention -/

theorem witness_SetupBegins :
    let busy := withQueue base { base.queue 0 with nextSeq := 2 }
    let begin_ := fun n s => run (.setupBegin .service 1#8 [n, 1#8]) s
    (hears base .service 2 = true ∧ base.cutover.nearDue = false ∧ base.status.part = .running ∧ base.nothingInTransit = true) ∧
    (busy.nothingInTransit = false ∧ hears inSetup .service 2 = true ∧ State.reset.status.part = .blank) ∧
    (begin_ 4#8 base).status.staged = some ⟨4, [true, false, false, false], []⟩ ∧
    (begin_ 1#8 State.reset).status.prior = some .blank ∧
    lastCode (begin_ 0#8 base) .service = some .badParameter ∧ lastCode (begin_ 5#8 base) .service = some .badParameter ∧
    lastCode (begin_ 1#8 busy) .service = some .notEmpty ∧ lastCode (begin_ 1#8 inSetup) .service = some .sequenceBroken ∧
    ((begin_ 1#8 (queued base 0 [req])).link (.lane 0)).queue = [.run (.answer 1#8 .notRunning .bare) []] := by
  decide +kernel

theorem witness_SetupBegins_transit :
    let q := base.queue 0
    let begin_ := fun s => lastCode (run (.setupBegin .service 1#8 [1#8, 1#8]) s) .service
    (inSetup.abandon.status.part = .running ∧ inSetup.abandon.status.staged = none ∧ base.abandon = base) ∧
    (∀ b ∈ [{ q with live := ⟨4, 5, 5⟩ }, { q with store := ⟨4, 5, 5⟩ }, { q with overflow := [96] },
        { q with buffer := some (oldClose .pending) }, { q with pending := some ⟨.manual, .wrap, false⟩ }],
      begin_ (withQueue base b) = some .notEmpty) ∧
    begin_ (withQueue base { q with live := ⟨5, 5, 5⟩, store := ⟨9, 9, 9⟩ }) = some .done ∧
    begin_ (inFlight base (.live 0) work) = some .notEmpty ∧
    begin_ { base with cutover := { base.cutover with stage := .waiting } } = some .notEmpty := by
  decide +kernel

/-- What varies in the ROUTE DEFINEs below. -/
structure DefineTry where
  route : Byte
  k     : Byte

/-- A ROUTE DEFINE payload: high-water room 1,024, ceiling 12. -/
def DefineTry.bytes (d : DefineTry) : List Byte :=
  [d.route, d.k, 2#8, 1#8, 5#8, 5#8, 5#8, 32#8, 0#8, 7#8, 255#8, 4#8, 0#8, 0#8, 0#8, 0#8, 0#8, 0#8, 0x12#8]

/-- The configuration of `DefineTry.bytes` with K 10. -/
def cfg10 : RouteConfig := ⟨10, 2, .down, 5, 5, 5, 32, 0, 7, 255, 1024, 12, true⟩

theorem witness_RouteDefinesStaged :
    let define_ := fun s p => run (.routeDefine .service 1#8 p) s
    (∃ b, parseDefine (DefineTry.bytes ⟨0#8, 10#8⟩) = some b ∧ b.route = 0#8 ∧ b.config true = some cfg10) ∧
    (hears inSetup .service 19 = true ∧ (DefineTry.bytes ⟨0#8, 10#8⟩).length = 19 ∧ base.status.part ≠ .setup) ∧
    (define_ inSetup (DefineTry.bytes ⟨0#8, 10#8⟩)).status.staged = some ⟨2, [true, false], [cfg10]⟩ ∧
    ((define_ inSetup (DefineTry.bytes ⟨0#8, 4#8⟩)).status.staged.map fun g => g.routes.map (·.highWater)) = some [16] ∧
    lastCode (define_ inSetup (DefineTry.bytes ⟨1#8, 10#8⟩)) .service = some .sequenceBroken ∧
    lastCode (define_ inSetup (DefineTry.bytes ⟨0#8, 11#8⟩)) .service = some .badParameter ∧
    (define_ inSetup (DefineTry.bytes ⟨0#8, 3#8⟩)).status.part = .running ∧
    lastCode (define_ base (DefineTry.bytes ⟨0#8, 10#8⟩)) .service = some .sequenceBroken :=
  ⟨⟨_, rfl, rfl, by decide⟩, by decide +kernel⟩

/-- The bytes of a ROUTE DEFINE at the least values of its ranges. -/
def leastDefine : DefineBytes := ⟨0#8, 4#8, 0#8, 0#8, 1#8, 1#8, 1#8, 1#8, 0#8, 0#8, 0#8, 0, List.replicate 6 0#8⟩

/-- The same at the greatest. -/
def greatestDefine : DefineBytes := ⟨0#8, 10#8, 3#8, 1#8, 255#8, 255#8, 255#8, 32#8, 7#8, 7#8, 255#8, 1024, List.replicate 6 0x99#8⟩

theorem witness_RouteDefinesStaged_ranges :
    let range := fun b => (DefineBytes.config b true).isSome
    (leastDefine.config true = some (definedAs leastDefine true) ∧ greatestDefine.config false = some (definedAs greatestDefine false)) ∧
    (∀ b ∈ [{ leastDefine with fraction := 4#8 }, { leastDefine with rounding := 2#8 }, { leastDefine with plus := 0#8 },
        { leastDefine with minus := 0#8 }, { leastDefine with minus := 2#8 }, { leastDefine with init := 0#8 },
        { leastDefine with init := 2#8 }, { leastDefine with window := 0#8 }, { greatestDefine with window := 33#8 },
        { leastDefine with tagStart := 1#8 }, { greatestDefine with tagEnd := 8#8 }, { leastDefine with highWater := 1025 },
        { leastDefine with ceiling := List.replicate 6 0xA0#8 }],
      range b = false) := by
  decide +kernel

theorem witness_RouteDefinesStaged_inRange : DefineInRange leastDefine ∧ DefineInRange greatestDefine := by
  unfold DefineInRange
  decide

/-- The base state in SETUP with some routes staged of a count. -/
def staged (n : Nat) (cs : List RouteConfig) : State :=
  { base with status := { base.status with part := .setup, prior := some .running, staged := some ⟨n, List.replicate n true, cs⟩ } }

theorem witness_SetupEndsInForce :
    let end_ := fun s => run (.setupEnd .service 1#8 []) s
    let moved := (staged 1 [cfg10]).setTerm 0 { till with route := 2, history := [past] }
    (hears (staged 2 [cfg10]) .service 0 = true ∧ (staged 2 [cfg10]).status.part = .setup) ∧
    lastCode (end_ (staged 2 [cfg10])) .service = some .sequenceBroken ∧
    lastCode (end_ (staged 2 [cfg10, cfg10])) .service = some .layoutTooLarge ∧
    (end_ (staged 1 [cfg10])).status.part = .running ∧ (end_ (staged 1 [cfg10])).qm.poolFree.length = 960 ∧
    (end_ (staged 1 [cfg10])).config 0 = some cfg10 ∧ (end_ (staged 1 [cfg10])).defined 2 = false ∧
    (end_ moved).term 0 = { till with route := 2, state := .held } ∧
    ((end_ (staged 1 [cfg10])).account 0).active = 12 := by
  decide +kernel

theorem witness_SetupEndsInForce_outside :
    (hears base .service 0 = true ∧ base.status.part ≠ .setup) ∧
    run (.setupEnd .service 1#8 []) base = base.answer .service 1#8 .sequenceBroken ∧
    storePlace (Staged.config ⟨2, [], [cfg, cfg10]⟩) 1 = ⟨80, 1024⟩ ∧ poolStart (Staged.config ⟨2, [], [cfg, cfg10]⟩) = 1104 := by
  decide +kernel

theorem witness_StatusAndFaultReads :
    let entry : FaultEntry := ⟨.ackTimeout, ⟨3, 7⟩, 0⟩
    let logged := { base with status := { base.status with log := [entry], overrun := true, flags := 0x101#11 } }
    (hears base .dispatch 0 = true ∧ hears base .dispatch 2 = true ∧ logged.status.log = [entry] ∧ base.status.log = []) ∧
    (run (.statusRead .dispatch 1#8 []) logged).status.flags = 0#11 ∧
    (run (.statusRead .dispatch 1#8 [0xFF#8, 0xFE#8]) logged).status.enables = 0x7FE#11 ∧
    (run (.faultRead .dispatch 1#8 []) logged).status.log = [] ∧
    (run (.faultRead .dispatch 1#8 []) logged).status.overrun = false ∧
    lastCode (run (.faultRead .dispatch 1#8 []) base) .dispatch = some .empty ∧ State.reset.alertLine = true := by
  decide +kernel

theorem witness_StatusAndFaultReads_log :
    let entry : FaultEntry := ⟨.ackTimeout, ⟨3, 7⟩, 0⟩
    let logged := fun n => { base with status := { base.status with log := List.replicate n entry } }
    let more := fun n => (logged n).logFault .closeDeferred 1
    ((more 15).status.log.length = 16 ∧ (more 15).status.overrun = false ∧ (more 16).status.log.length = 16 ∧
      (more 16).status.overrun = true ∧ (more 16).status.log.getLast? = some ⟨.closeDeferred, ⟨0, 0⟩, 1⟩) ∧
    holdsFlag (more 0).status.flags .faultLogged = true ∧ (more 0).alertLine = true ∧ base.alertLine = false ∧
    { base with status := { base.status with flags := 1#11, enables := 0x7FE#11 } }.alertLine = false := by
  decide +kernel

theorem witness_EraseEmpties :
    let s := inFlight (queued (base.setLink .service { Link.start with queue := [.place 0 3#8] }) 0 [req]) (.live 0) work
    hears s .service 0 = true ∧
    (run (.erase .service 9#8 []) s).link .service = { Link.start with queue := [.run (.answer 9#8 .done .bare) []] } ∧
    ((run (.erase .service 9#8 []) s).link (.lane 0)).queue =
      [.run (.answer 1#8 .notRunning .bare) [], .run (.answer 1#8 .notRunning .bare) []] ∧
    (run (.erase .service 9#8 []) s).status.part = .blank := by
  decide +kernel

theorem witness_EraseEmpties_dispatch :
    let s := base.setLink .dispatch { Link.start with queue := [.place 1 3#8, .run (.answer 4#8 .done .bare) [], .place 0 5#8] }
    ((run (.erase .service 9#8 []) s).link .dispatch).queue = [.run (.answer 4#8 .done .bare) []] := by
  decide +kernel

theorem witness_WarmRestore :
    let off := run .powerLoss offered1
    let loading_ := withFamily base .loading .load (some fam.now)
    (off.supply = .off ∧ off.valid = true ∧ offered1.supply ≠ .off) ∧
    (inSetup.status.part = .setup ∧ inSetup.status.prior = some .running) ∧
    ((loading_.family 0).op = .load ∧ (loading_.family 0).prior = some fam.now ∧ loading_.cutover.stage = .idle) ∧
    (run (.warmRestore 0x10#6) off).route 0 = ⟨.down .restore, 5, [], 0, .stopped, none⟩ ∧
    ((run (.warmRestore 0x10#6) off).link .dispatch).fast = true ∧
    (run (.warmRestore 0x10#6) off).at? 0 = some (recordOf .live .pending 1 7) ∧
    (run (.warmRestore 0#6) inSetup).status.part = .running ∧ (run (.warmRestore 0#6) loading_).family 0 = fam := by
  decide +kernel

theorem witness_WarmRestore_records :
    let closing := offered3.setTerm 0 { till with state := .closing, history := [{ past with disposition := .acked }] }
    let s := inFlight (withPast offered3 [{ past with disposition := .offered }]) (.pool 98) work
    let t := run (.warmRestore 0#6) (run .powerLoss s)
    (s.engine.kept = some ⟨0, 1, .pool 98, ⟨0, 1, 0, 0⟩⟩ ∧ NoCloseDue s 0) ∧
    t.qm.poolFree = [97, 98] ∧ t.at? 96 = some (recordOf .store .pending 3 9) ∧ (t.queue 0).live = ⟨0, 0, 2⟩ ∧
    (t.term 0).history = [past] ∧ (t.account 0).active = 1000 ∧ (t.queue 0).nextSeq = 4 ∧ t.family 0 = fam ∧
    (run (.warmRestore 0#6) closing).term 0 = Terminal.vacant := by
  refine ⟨⟨?_, fun p h => ?_⟩, ?_⟩
  · decide +kernel
  · have : (inFlight (withPast offered3 [{ past with disposition := .offered }]) (.pool 98) work).queue 0 = offered3.queue 0 := rfl
    rw [this] at h
    have hn : (offered3.queue 0).pending = none := by decide +kernel
    rw [hn] at h
    cases h
  · decide +kernel

theorem witness_WarmRestore_closes :
    let due := inFlight (withQueue up { up.queue 0 with nextSeq := 5, pending := some ⟨.manual, .wrap, false⟩ }) (.live 0) work
    let t := run (.warmRestore 0#6) due
    ((due.queue 0).pending = some ⟨.manual, .wrap, false⟩ ∧ (due.queue 0).buffer = none ∧ due.cutover.stage = .idle) ∧
    ((t.queue 0).batch = 2 ∧ (t.queue 0).nextSeq = 1 ∧ (t.queue 0).pending = none) ∧
    (t.queue 0).buffer.map (fun c => (c.id, c.reason, c.state)) = some (⟨0, 1, 5⟩, .manual, .pending) := by
  decide +kernel

theorem witness_WarmRestore_lostRoll :
    let s := StageTry.on ⟨.rolling, none, some 0⟩ (withFamily up .rolling .cutoverRoll (some fam.now))
    let t := run (.warmRestore 0#6) s
    ((s.family 0).op = .cutoverRoll ∧ (s.family 0).prior = some fam.now ∧ s.cutover.stage = .rolling ∧
      ∀ g, (s.family g).op = .cutoverRoll → g = 0) ∧
    t.family 0 = fam ∧ t.status.log = [⟨.rollLost, ⟨0, 0⟩, 0⟩] ∧ t.cutover.stage = .idle := by
  decide +kernel

theorem witness_WarmRestore_resumes :
    let s := StageTry.on ⟨.closing, some 2, some 0⟩ (withQueue up { up.queue 0 with nextSeq := 5 })
    let t := run (.warmRestore 0#6) s
    (s.cutover.nextRoute = some 2 ∧ (0 : RouteNo) < 2 ∧ s.defined 2 = true ∧ (s.queue 2).pending = none ∧ (s.family 0).op = .none) ∧
    (t.queue 0).nextSeq = 5 ∧ (t.queue 2).buffer.map (·.reason) = some .scheduled ∧ (t.family 0).now.epoch = 1 := by
  decide +kernel

theorem test_WarmRestore_resumes :
    let t := run (.warmRestore 0#6) (StageTry.on ⟨.closing, some 0, some 0⟩ up)
    t.cutover.stage = .idle ∧ (t.queue 0).batch = 2 ∧ (t.queue 2).batch = 2 ∧ (t.family 0).now.epoch = 1 ∧
    holdsFlag t.status.flags .cutoverDone = true := by
  decide +kernel

theorem witness_PinsAndLostRetention :
    let dark := { base with supply := .off, valid := false }
    (base.supply ≠ .off ∧ base.supply = .on ∧ dark.supply = .off ∧ dark.valid = false) ∧
    (run .powerLoss (inFlight up (.live 0) work)).engine = .cut ⟨0, 1, .live 0, ⟨0, 1, 0, 0⟩⟩ ∧
    (run .retentionLoss base).valid = false ∧ (run .resetLine base).supply = .held ∧
    (run (.storeLost 0#6) dark) = State.reset ∧ run (.storeLost 0#6) base = base := by
  decide +kernel

theorem witness_PinsAndLostRetention_near :
    let warned := { base with cutover := { base.cutover with near := true } }
    let held := run .resetLine warned
    warned.supply ≠ .off ∧ (run .powerLoss warned).cutover.near = true ∧ held.cutover.near = true ∧
    (run .powerLoss held).cutover.near = true ∧ (run (.warmRestore 0#6) (run .powerLoss warned)).cutover.near = false ∧
    (run (.warmRestore 0#6) held).cutover.near = false := by
  decide +kernel

/-! ### A state that meets every invariant -/

theorem family_base (f : FamilyNo) : base.family f = if 0 = f then fam else Family.empty := by
  simp only [base, State.family, Vec.get_put, KeyUnit.empty, Vec.get_replicate]

theorem term_base (t : TerminalNo) : base.term t = if 0 = t then till else Terminal.vacant := by
  simp only [base, State.reset, State.term, Vec.get_put, Vec.get_replicate]

theorem config_base (r : RouteNo) : base.config r = if 2 = r then some cfg else if 0 = r then some cfg else none := by
  simp only [base, State.config, Vec.get_put, Vec.get_replicate]

theorem route_base (r : RouteNo) : base.route r =
    if 2 = r then ⟨.down .start, 5, [], 0, .stopped, none⟩
    else if 0 = r then ⟨.down .start, 5, [], 0, .stopped, none⟩ else RouteDispatch.absent := by
  simp only [base, State.reset, State.route, Vec.get_put, Vec.get_replicate]

theorem account_base (r : RouteNo) :
    base.account r = if 0 = r then ⟨Totals.zero, 0, false, 1000, 1000⟩ else RouteAccount.empty := by
  simp only [base, State.reset, State.account, Vec.get_put, Vec.get_replicate]

theorem witness_StepKeepsKeysOk : base.KeysOk ∧ step base = .next base := by
  refine ⟨⟨fun f => ?_, fun f w h => ?_⟩, rfl⟩
  · rw [family_base]
    split
    · exact ⟨⟨by decide, by decide, by decide, by decide, by decide, by decide, by decide, by decide⟩, fun _ => by decide,
        fun h => by simp [fam] at h, fun h => by simp [fam] at h, fun h => by simp [fam] at h⟩
    · exact ⟨⟨by decide, by decide, by decide, by decide, by decide, by decide, by decide, by decide⟩, fun _ => by decide,
        fun h => by simp [Family.empty] at h, fun h => by simp [Family.empty] at h, fun h => by simp [Family.empty] at h⟩
  · simp [base, KeyUnit.empty] at h

theorem witness_StepKeepsQueuesOk : base.QueuesOk ∧ step base = .next base := by
  refine ⟨⟨by decide +kernel, ?_, by decide +kernel, fun r st h => ?_, fun l _ => ?_⟩, rfl⟩
  · intro i q h
    simp [base, State.reset, Intake.start, State.lane] at h
  · rw [route_base] at h
    split at h
    · simp at h
    · split at h <;> simp [RouteDispatch.absent] at h
  · have hq : (base.link l).queue = [] := by simp [base, State.reset, State.link, Link.start]
    have hs : base.streamsOn l ≤ 4 := le_trans List.countP_le_length (by simp)
    rw [hq]
    simp only [List.length_nil]
    omega

theorem cfg_ok : cfg.Ok :=
  ⟨by decide, by decide, by decide, by decide, by decide, by decide, by decide, by decide, by decide⟩

theorem witness_StepKeepsDispatchOk : base.DispatchOk ∧ step base = .next base := by
  have hc : ∀ r c, base.config r = some c → c = cfg := by
    intro r c h
    rw [config_base] at h
    split at h
    · exact (Option.some.inj h).symm
    · split at h
      · exact (Option.some.inj h).symm
      · simp at h
  refine ⟨⟨fun r c h => ?_, fun g c h => ?_, fun r c h => ?_⟩, rfl⟩
  · rw [hc r c h]
    exact cfg_ok
  · simp [base, StatusUnit.blank] at h
  · rw [hc r c h, route_base]
    split
    · exact ⟨by decide, by decide, by decide, by decide, by decide, by simp, by simp⟩
    · split
      · exact ⟨by decide, by decide, by decide, by decide, by decide, by simp, by simp⟩
      · exact ⟨by decide, by decide, by decide, by decide, by decide, by simp [RouteDispatch.absent], by simp [RouteDispatch.absent]⟩

theorem witness_StepKeepsTerminalsOk : base.TerminalsOk ∧ step base = .next base := by
  refine ⟨⟨fun t => ?_, fun k w h => ?_⟩, rfl⟩
  · rw [term_base]
    split
    · exact ⟨by decide, by decide, by decide⟩
    · exact ⟨by decide, by decide, by decide⟩
  · simp [base, State.reset] at h

theorem witness_StepKeepsAccountsOk : base.AccountsOk ∧ step base = .next base := by
  refine ⟨⟨fun r => ?_, fun r => ?_, fun t => ?_, fun k w h => ?_⟩, rfl⟩
  · rw [account_base]
    split <;> simp [base, State.reset, Engine.offlineOwed, RouteAccount.empty]
  · rw [account_base]
    split <;> exact ⟨by decide, by decide, by decide⟩
  · rw [term_base]
    split <;> exact ⟨by decide, by decide, by decide⟩
  · simp [base, State.reset] at h

theorem witness_StepKeepsStoreOk : base.StoreOk ∧ step base = .next base := by
  refine ⟨⟨rfl, ?_, fun n h => ?_, fun r n h => ?_, fun k h => ?_, by decide +kernel, fun k w h => ?_⟩, rfl⟩
  · simp [base, QueueManager.empty]
  · have := List.mem_range'_1.mp h
    simp only [Config.storeSlots]
    omega
  · simp [base, QueueManager.empty, State.queue, RouteQueue.fresh] at h
  · simp [base, State.reset, Engine.kept] at h
  · simp [base, State.reset] at h

theorem witness_StepKeepsCutoverOk : base.CutoverOk ∧ step base = .next base := by
  refine ⟨⟨by decide +kernel, ⟨?_, by decide +kernel⟩, by decide +kernel, by decide +kernel, by decide +kernel, ?_, by decide +kernel⟩, rfl⟩
  · simp [base, CutoverUnit.initial, CutoverHour.Ok]
  · intro f h
    rw [family_base] at h
    split at h <;> simp [fam, Family.empty] at h

theorem witness_StepKeepsSetupOk : base.SetupOk ∧ step base = .next base := by
  refine ⟨⟨by decide +kernel, by decide +kernel, by decide +kernel, fun g h => ?_⟩, rfl⟩
  simp [base, StatusUnit.blank] at h

end Sys2Proof.Tests
end

section
/-! The Terminal Table (01_terminal_table.md): every step keeps its entries in order, and what the terminal commands do. -/

namespace Sys2Proof.Machine

/-! ### The Terminal Table as a table of entries (R1, R11, R13, R77) -/

/-- What `State.TerminalsOk` says of one entry: it is in order, and while a wrap for it is in flight it is not VACANT and
does not hold the till sequence of that wrap (R1, R11, R13, R77). -/
structure Terminal.Fits (engine : Engine) (t : TerminalNo) (e : Terminal) : Prop where
  ok     : e.Ok
  flight : ∀ k w, engine = .busy k w → w.terminal = t → e.state ≠ .vacant ∧ ∀ h ∈ e.history, h.till ≠ w.till

/-- Every entry of a Terminal Table fits. -/
def TableOk (engine : Engine) (ts : Vector Terminal 64) : Prop := ∀ t, (Vec.get ts t).Fits engine t

/-- The invariant reads the engine and the table alone, entry by entry. -/
theorem terminalsOk_iff (s : State) : s.TerminalsOk ↔ TableOk s.engine s.terminals := by
  constructor
  · intro h t
    refine ⟨h.entries t, ?_⟩
    rintro k w he rfl
    exact h.flight k w he
  · intro h
    exact ⟨fun t => (h t).ok, fun k w he => (h w.terminal).flight k w he rfl⟩

/-- A step that leaves the Terminal Table and the Wrap Engine as they are. -/
structure TableKept (s t : State) : Prop where
  terminals : t.terminals = s.terminals
  engine    : t.engine = s.engine

theorem TableKept.refl (s : State) : TableKept s s := ⟨rfl, rfl⟩

theorem TableKept.trans {s t u : State} (h : TableKept s t) (k : TableKept t u) : TableKept s u :=
  ⟨k.terminals.trans h.terminals, k.engine.trans h.engine⟩

theorem State.TerminalsOk.kept {s t : State} (h : s.TerminalsOk) (k : TableKept s t) : t.TerminalsOk := by
  rw [terminalsOk_iff, k.engine, k.terminals]
  exact (terminalsOk_iff s).mp h

/-! ### One entry -/

theorem Terminal.vacant_ok : Terminal.vacant.Ok := ⟨fun _ => rfl, by decide, by decide⟩

theorem servesTerminal_eq_false {engine : Engine} {t : TerminalNo} :
    engine.servesTerminal t = false ↔ ∀ k w, engine = .busy k w → w.terminal ≠ t := by
  cases engine <;> simp [Engine.servesTerminal]

/-- A VACANT entry fits where no wrap is in flight for it. -/
theorem Terminal.vacant_fits {engine : Engine} {t : TerminalNo} (h : engine.servesTerminal t = false) :
    Terminal.vacant.Fits engine t :=
  ⟨Terminal.vacant_ok, fun k w he ht => absurd ht (servesTerminal_eq_false.mp h k w he)⟩

/-- An entry with a history entry is not VACANT (R1). -/
theorem Terminal.Ok.not_vacant {e : Terminal} (h : e.Ok) (hh : e.history ≠ []) : e.state ≠ .vacant :=
  fun hv => hh (by rw [h.vacant hv]; rfl)

/-- The one way an entry is edited: it is not VACANT afterwards, and its history list has gained no till sequence. -/
theorem Terminal.Fits.edit {engine : Engine} {t : TerminalNo} {e e' : Terminal} (h : e.Fits engine t)
    (hs : e'.state ≠ .vacant) (hh : (e'.history.map (·.till)).Sublist (e.history.map (·.till))) : e'.Fits engine t := by
  refine ⟨⟨fun hv => absurd hv hs, ?_, hh.nodup h.ok.distinct⟩, fun k w he ht => ⟨hs, fun x hx => ?_⟩⟩
  · have hlen := hh.length_le
    rw [List.length_map, List.length_map] at hlen
    exact hlen.trans h.ok.length
  · obtain ⟨y, hy, hxy⟩ := List.mem_map.mp (hh.subset (List.mem_map_of_mem hx))
    have hne := (h.flight k w he ht).2 y hy
    exact fun hw => hne (hxy.trans hw)

/-- The release test keeps an entry in order: it frees none for which a wrap is in flight (R11). -/
theorem Terminal.Fits.release {engine : Engine} {t : TerminalNo} {e : Terminal} (h : e.Fits engine t) :
    (release engine t e).Fits engine t := by
  rcases release_cases engine t e with ⟨hr, hv⟩ | ⟨-, hk⟩
  · rw [hv]
    simp only [releasable, Bool.and_eq_true, Bool.not_eq_true'] at hr
    exact Terminal.vacant_fits hr.2
  · rw [hk]
    exact h

/-- Totals set to zero keep an entry in order; on a VACANT one they are zero already (R1, R109). -/
theorem Terminal.Fits.zeroed {engine : Engine} {t : TerminalNo} {e : Terminal} (h : e.Fits engine t) :
    Terminal.Fits engine t { e with totals := Totals.zero } := by
  by_cases hv : e.state = .vacant
  · have he := h.ok.vacant hv
    subst he
    exact h
  · exact h.edit hv (List.Sublist.refl _)

/-- A report keeps an entry in order: it moves dispositions, not till sequences (R17). -/
theorem Terminal.Fits.reported {engine : Engine} {t : TerminalNo} {e : Terminal} {id : Identity} {ev : RecordEvent}
    (h : e.Fits engine t) (hh : e.history ≠ []) :
    Terminal.Fits engine t { e with history := reportHistory id ev e.history } :=
  h.edit (h.ok.not_vacant hh) (by rw [reportHistory_tills])

/-- A SETUP END keeps an entry in order: it may hold it and empty its history list (R19). -/
theorem Terminal.Fits.atSetup {engine : Engine} {t : TerminalNo} {e : Terminal} (h : e.Fits engine t)
    (old new_ : Vector (Option RouteConfig) 4) : (e.atSetup old new_).Fits engine t := by
  unfold Terminal.atSetup
  split
  · split
    · exact h.edit (by simp) (List.nil_sublist _)
    · by_cases hv : e.state = .vacant
      · have he := h.ok.vacant hv
        subst he
        exact h
      · exact h.edit hv (List.nil_sublist _)
  · exact h

/-! ### History lists (R13, R16) -/

/-- Marking the original leaves till sequences as they are (R16). -/
theorem markReversed_tills (till : Nat) (voided : Bool) (hs : List HistoryEntry) :
    (markReversed till voided hs).map (·.till) = hs.map (·.till) := by
  unfold markReversed
  rw [List.map_map]
  refine List.map_congr_left fun h _ => ?_
  simp only [Function.comp]
  split <;> rfl

theorem historyMarked_tills (w : ReservationWork) (hs : List HistoryEntry) :
    (historyMarked w hs).map (·.till) = hs.map (·.till) := by
  unfold historyMarked
  split
  · exact markReversed_tills _ _ _
  · rfl

/-- An entry after a completion or a withdrawal, before the release test: totals added and a history entry put in front of
a list (R13, R49). -/
def Terminal.recorded (e : Terminal) (what : Completed) (a : Nat) (entry : HistoryEntry) (hs : List HistoryEntry) : Terminal :=
  { e with totals := e.totals.add what a, history := addHistory entry hs }

/-- A new history entry, with a till sequence the list does not hold, keeps a list of distinct till sequences within its 8
entries (R13). -/
theorem Terminal.Ok.recorded {e : Terminal} {what : Completed} {a : Nat} {entry : HistoryEntry} {hs : List HistoryEntry}
    (h : e.Ok) (hv : e.state ≠ .vacant) (hnew : ∀ x ∈ e.history, x.till ≠ entry.till)
    (htills : hs.map (·.till) = e.history.map (·.till)) : (e.recorded what a entry hs).Ok := by
  have hall : ((entry :: hs).map (·.till)).Nodup := by
    rw [List.map_cons, htills, List.nodup_cons]
    refine ⟨fun hm => ?_, h.distinct⟩
    obtain ⟨x, hx, hxt⟩ := List.mem_map.mp hm
    exact hnew x hx hxt
  exact ⟨fun hvac => absurd hvac hv, List.length_take_le _ _, hall.sublist ((List.take_sublist _ _).map _)⟩

/-! ### The table -/

theorem TableOk.put {engine : Engine} {ts : Vector Terminal 64} {t : TerminalNo} {e : Terminal} (h : TableOk engine ts)
    (he : e.Fits engine t) : TableOk engine (Vec.put ts t e) := by
  intro u
  by_cases hu : t = u
  · subst hu
    rw [Vec.get_put_same]
    exact he
  · rw [Vec.get_put_ne _ _ hu]
    exact h u

/-- A table stays in order under an engine whose wrap in flight, if it has one, was in flight before. -/
theorem TableOk.engine {e e' : Engine} {ts : Vector Terminal 64} (h : TableOk e ts)
    (hw : ∀ k w, e' = .busy k w → ∃ k' w', e = .busy k' w' ∧ w'.terminal = w.terminal ∧ w'.till = w.till) :
    TableOk e' ts := by
  refine fun t => ⟨(h t).ok, fun k w he ht => ?_⟩
  obtain ⟨k', w', he', hterm, htill⟩ := hw k w he
  rw [← htill]
  exact (h t).flight k' w' he' (hterm.trans ht)

/-- With no wrap in flight the entries need only be in order themselves. -/
theorem TableOk.unserved {e e' : Engine} {ts : Vector Terminal 64} (h : TableOk e ts)
    (hidle : ∀ k w, e' ≠ .busy k w) : TableOk e' ts :=
  h.engine fun k w he => absurd he (hidle k w)

/-- A report keeps the table in order (R17). -/
theorem TableOk.reportTo {engine : Engine} {ts : Vector Terminal 64} (h : TableOk engine ts) (t : TerminalNo)
    (id : Identity) (ev : RecordEvent) : TableOk engine (reportTo engine ts t id ev) := by
  cases hany : (Vec.get ts t).history.any (fun x => x.hears id ev) with
  | false => rw [reportTo_unheard hany]; exact h
  | true =>
    have hne : (Vec.get ts t).history ≠ [] := by
      intro hnil
      simp [hnil] at hany
    simp only [Machine.reportTo, hany, if_true]
    exact h.put ((h t).reported hne).release

/-- The reports of a rewind keep the table in order (R17, R104). -/
theorem TableOk.rewindReports {engine : Engine} (slots : List (Nat × Record)) (ns : List Nat) {ts : Vector Terminal 64}
    (h : TableOk engine ts) : TableOk engine (rewindReports engine slots ns ts) := by
  unfold Machine.rewindReports
  induction ns generalizing ts with
  | nil => exact h
  | cons n ns ih =>
    rw [List.foldl_cons]
    refine ih ?_
    split
    · split
      · exact h.reportTo _ _ _
      · exact h
    · exact h

/-- A route's close keeps the table in order (R109). -/
theorem TableOk.closeTerminals {engine : Engine} {ts : Vector Terminal 64} (h : TableOk engine ts) (r : RouteNo) :
    TableOk engine (closeTerminals engine ts r) := by
  intro t
  rw [Machine.closeTerminals, Vec.get_gen]
  dsimp only
  split
  · exact (h t).zeroed.release
  · exact h t

/-! ### The shared operations (R11, R17, R49, R104, R109, R121, R130) -/

theorem setTerm_terminalsOk {s : State} {t : TerminalNo} {e : Terminal} (h : s.TerminalsOk) (he : e.Fits s.engine t) :
    (s.setTerm t e).TerminalsOk :=
  (terminalsOk_iff _).mpr (((terminalsOk_iff s).mp h).put he)

/-- An edit of an entry that leaves it not VACANT and with no new till sequence keeps the table in order. -/
theorem setTerm_edit_terminalsOk {s : State} {t : TerminalNo} {e : Terminal} (h : s.TerminalsOk) (hs : e.state ≠ .vacant)
    (hh : (e.history.map (·.till)).Sublist ((s.term t).history.map (·.till))) : (s.setTerm t e).TerminalsOk :=
  setTerm_terminalsOk h (((terminalsOk_iff s).mp h t).edit hs hh)

theorem releaseTest_terminalsOk {s : State} (h : s.TerminalsOk) (t : TerminalNo) : (s.releaseTest t).TerminalsOk :=
  setTerm_terminalsOk h ((terminalsOk_iff s).mp h t).release

theorem releaseAll_terminalsOk {s : State} (h : s.TerminalsOk) : s.releaseAll.TerminalsOk := by
  rw [terminalsOk_iff] at h ⊢
  intro t
  simp only [State.releaseAll, Vec.get_gen]
  exact (h t).release

theorem performClose_terminalsOk {s : State} (h : s.TerminalsOk) (r : RouteNo) (why : CloseReason) :
    (s.performClose r why).TerminalsOk :=
  (terminalsOk_iff _).mpr (((terminalsOk_iff s).mp h).closeTerminals r)

theorem requestClose_terminalsOk {s : State} (h : s.TerminalsOk) (r : RouteNo) (why : CloseReason) :
    (s.requestClose r why).1.TerminalsOk := by
  rcases requestClose_cases s r why with ⟨p, -, e⟩ | ⟨-, -, e⟩ | ⟨-, -, -, e⟩ | ⟨-, -, -, e⟩ <;> rw [e]
  · exact h
  · exact h.kept ⟨rfl, rfl⟩
  · exact h.kept ⟨rfl, rfl⟩
  · exact performClose_terminalsOk h r why

theorem askClose_terminalsOk {s : State} (h : s.TerminalsOk) (r : RouteNo) : (s.askClose r).TerminalsOk := by
  unfold State.askClose
  split
  · exact requestClose_terminalsOk h r _
  · exact h

theorem settleDeferred_terminalsOk {s : State} (h : s.TerminalsOk) (r : RouteNo) : (s.settleDeferred r).TerminalsOk := by
  rcases settleDeferred_cases s r with e | ⟨p, -, -, e⟩ | ⟨p, -, -, -, e⟩ <;> rw [e]
  · exact h
  · exact h.kept ⟨rfl, rfl⟩
  · exact performClose_terminalsOk h r _

theorem settleWaiting_terminalsOk {s : State} (h : s.TerminalsOk) (r : RouteNo) : (s.settleWaiting r).TerminalsOk := by
  rcases settleWaiting_cases s r with e | ⟨p, -, -, e⟩ <;> rw [e]
  · exact h
  · exact performClose_terminalsOk h r _

theorem dueClose_terminalsOk {s : State} (h : s.TerminalsOk) (r : RouteNo) (last : Bool) :
    (s.dueClose r last).TerminalsOk := by
  rcases dueClose_cases s r last with e | ⟨why, -, e⟩ | e | e <;> rw [e]
  · exact h
  · exact performClose_terminalsOk h r why
  · exact h.kept ⟨rfl, rfl⟩
  · exact h.kept ⟨rfl, rfl⟩

theorem rewind_terminalsOk {s : State} (h : s.TerminalsOk) (r : RouteNo) : (s.rewind r).TerminalsOk :=
  (terminalsOk_iff _).mpr (((terminalsOk_iff s).mp h).rewindReports _ _)

theorem takeDown_terminalsOk {s : State} (h : s.TerminalsOk) (r : RouteNo) (why : DownReason) (cause : EndCause) :
    (s.takeDown r why cause).TerminalsOk := by
  cases hst : (s.route r).stream with
  | none =>
    rw [takeDown_closed why cause hst]
    exact (rewind_terminalsOk h r).kept ⟨rfl, rfl⟩
  | some st =>
    rw [takeDown_open why cause hst]
    exact (rewind_terminalsOk (h.kept ⟨rfl, rfl⟩) r).kept ⟨rfl, rfl⟩

theorem offer_terminalsOk {s s' : State} {r : RouteNo} {c : RouteConfig} {corr : Byte} {m : Message} (h : s.TerminalsOk)
    (ho : s.offer r c corr = some (s', m)) : s'.TerminalsOk := by
  rcases offer_cases ho with ⟨slot, rec, e, -, rfl, -⟩ | ⟨cl, e, -, rfl, -⟩
  · exact (terminalsOk_iff _).mpr (((terminalsOk_iff s).mp h).reportTo _ _ _)
  · exact h.kept ⟨rfl, rfl⟩

theorem ackRecord_terminalsOk {s : State} (h : s.TerminalsOk) (r : RouteNo) (n : Nat) (rec : Record) :
    (s.ackRecord r n rec).TerminalsOk :=
  (terminalsOk_iff _).mpr (((terminalsOk_iff s).mp h).reportTo rec.terminal rec.id .acked)

theorem acknowledge_terminalsOk {s : State} (h : s.TerminalsOk) (r : RouteNo) (c : RouteConfig) (id : Identity) :
    (s.acknowledge r c id).TerminalsOk := by
  unfold State.acknowledge
  have hroute : (s.setRoute r ((s.route r).unlisting c id)).TerminalsOk := h.kept ⟨rfl, rfl⟩
  rcases ackAtQueues_cases (s.setRoute r ((s.route r).unlisting c id)) r id with
    e | ⟨n, rec, -, -, -, e⟩ | ⟨cl, -, -, e⟩ <;> rw [e]
  · exact hroute
  · exact ackRecord_terminalsOk hroute r n rec
  · refine settleDeferred_terminalsOk ?_ r
    exact hroute.kept ⟨rfl, rfl⟩

theorem serveStream_terminalsOk {s : State} (h : s.TerminalsOk) (l : LinkId) (r : RouteNo) :
    (s.serveStream l r).TerminalsOk := by
  unfold State.serveStream
  split
  · split
    · next ho =>
      have ho := offer_terminalsOk h ho
      unfold State.endByCount
      dsimp only
      split <;> exact ho.kept ⟨rfl, rfl⟩
    · exact h
  · exact h

theorem nextMessage_terminalsOk {s : State} (h : s.TerminalsOk) (l : LinkId) : (s.nextMessage l).TerminalsOk := by
  unfold State.nextMessage
  split
  · exact h.kept ⟨rfl, rfl⟩
  · split
    · exact serveStream_terminalsOk h l _
    · exact h

/-! ### The wrap in flight: GRANT, withdrawal and COMPLETION (R13, R65, R77, R85, R92) -/

/-- The lane a grant takes is eligible (R65, R66). -/
theorem grantLane_eligible {s : State} {i : LaneNo} (h : s.grantLane = some i) : s.eligible i = true := by
  have hmem : i ∈ (rotationFrom s.intake.rotation).filter fun j => s.eligible j := by
    unfold State.grantLane at h
    dsimp only at h
    split at h
    · next j hj =>
      cases h
      exact List.mem_of_find?_eq_some hj
    · exact List.mem_of_mem_head? h
  exact (List.mem_filter.mp hmem).2

/-- No wrap is in flight when a head is eligible (R64). -/
theorem idle_of_eligible {s : State} {i : LaneNo} (h : s.eligible i = true) : s.engine = .idle := by
  simp only [State.eligible, State.grantsOpen, Bool.and_eq_true] at h
  obtain ⟨⟨⟨hidle, -⟩, -⟩, -⟩ := h
  cases he : s.engine <;> simp_all [Engine.isIdle]

/-- What the first two grant checks let through (R76, R77): where a request is neither refused nor answered DUPLICATE, its
terminal is ACTIVE and holds no history entry with its till sequence. -/
theorem grantChecks_passed {s : State} {q : Request} (hr : ∀ code, s.grantChecks q ≠ .refused code)
    (hd : ∀ h, s.grantChecks q ≠ .duplicate h) :
    (s.term q.terminal).state = .active ∧ ∀ x ∈ (s.term q.terminal).history, x.till ≠ q.till := by
  unfold State.grantChecks at hr hd
  dsimp only at hr hd
  cases hst : (s.term q.terminal).state with
  | vacant => exact absurd (by rw [hst]) (hr .terminalVacant)
  | held => exact absurd (by rw [hst]) (hr .terminalHeld)
  | closing => exact absurd (by rw [hst]) (hr .terminalClosing)
  | active =>
    refine ⟨rfl, fun x hx => ?_⟩
    cases hf : (s.term q.terminal).history.find? fun x => x.till == q.till with
    | some y => exact absurd (by rw [hst, hf]) (hd y)
    | none => simpa using List.find?_eq_none.mp hf x hx

/-- Turning a record VOID touches neither the table nor the engine (R92). -/
theorem voidRecord_kept (s : State) (r : RouteNo) (till : Nat) (h : HistoryEntry) : TableKept s (s.voidRecord r till h) := by
  unfold State.voidRecord
  split
  · split <;> exact ⟨rfl, rfl⟩
  · exact TableKept.refl s

/-- A completion and a withdrawal, with no wrap in flight after them, keep the table in order: the entry they record in is
not VACANT and does not hold the new till sequence (R11, R13). -/
theorem TableOk.recorded {e e' : Engine} {ts : Vector Terminal 64} {t : TerminalNo} {what : Completed} {a : Nat}
    {entry : HistoryEntry} {hs : List HistoryEntry} (h : TableOk e ts) (hidle : ∀ k w, e' ≠ .busy k w)
    (hv : (Vec.get ts t).state ≠ .vacant) (hnew : ∀ x ∈ (Vec.get ts t).history, x.till ≠ entry.till)
    (htills : hs.map (·.till) = (Vec.get ts t).history.map (·.till)) :
    TableOk e' (Vec.put ts t (release e' t ((Vec.get ts t).recorded what a entry hs))) := by
  have hfits : ((Vec.get ts t).recorded what a entry hs).Fits e' t :=
    ⟨(h t).ok.recorded hv hnew htills, fun k w he => absurd he (hidle k w)⟩
  exact (h.unserved hidle).put hfits.release

/-- The Terminal Table after a withdrawal (R14, R16, R92). -/
theorem withdraw_terminals (s : State) (q : Request) (h : HistoryEntry) :
    (s.withdraw q h).terminals = Vec.put s.terminals q.terminal (release s.engine q.terminal
      ((s.term q.terminal).recorded .withdrawal h.amount (withdrawalEntry q.till h)
        (markReversed h.till true (s.term q.terminal).history))) := by
  have hterms : ∀ r, (s.voidRecord r q.till h).terminals = s.terminals := fun r => (voidRecord_kept s r q.till h).terminals
  have hengine : ∀ r, (s.voidRecord r q.till h).engine = s.engine := fun r => (voidRecord_kept s r q.till h).engine
  simp [State.withdraw, State.addTotals, State.term, hterms, hengine, Terminal.recorded]

theorem withdraw_engine (s : State) (q : Request) (h : HistoryEntry) : (s.withdraw q h).engine = s.engine := by
  simp [State.withdraw, (voidRecord_kept s _ q.till h).engine]

theorem withdraw_terminalsOk {s : State} (hs : s.TerminalsOk) (q : Request) (h : HistoryEntry) (hidle : s.engine = .idle)
    (hactive : (s.term q.terminal).state = .active) (hnew : ∀ x ∈ (s.term q.terminal).history, x.till ≠ q.till) :
    (s.withdraw q h).TerminalsOk := by
  rw [terminalsOk_iff] at hs ⊢
  rw [withdraw_terminals, withdraw_engine]
  have hv : (s.term q.terminal).state ≠ .vacant := by simp [hactive]
  exact hs.recorded (by simp [hidle]) hv hnew (markReversed_tills _ _ _)

/-- The reservation puts a wrap in flight for a terminal that is not VACANT and does not hold its till sequence (R77, R85). -/
theorem reserve_terminalsOk {s : State} (hs : s.TerminalsOk) (q : Request) (p : WrapPlan)
    (hactive : (s.term q.terminal).state = .active) (hnew : ∀ x ∈ (s.term q.terminal).history, x.till ≠ q.till) :
    (s.reserve q p).TerminalsOk := by
  refine ⟨hs.entries, fun k w he => ?_⟩
  rw [State.reserve_engine] at he
  cases he
  refine ⟨fun hv => ?_, hnew⟩
  have hterm : (s.term q.terminal).state = .vacant := hv
  rw [hactive] at hterm
  cases hterm

/-- The outcome of the grant checks, carried out on an IDLE engine (R84, R85, R92). -/
theorem settleGrant_terminalsOk {s : State} (hs : s.TerminalsOk) (hidle : s.engine = .idle) (q : Request) :
    (s.settleGrant q (s.grantChecks q)).TerminalsOk := by
  cases hv : s.grantChecks q with
  | refused code => exact hs.kept ⟨rfl, rfl⟩
  | duplicate h => exact hs.kept ⟨rfl, rfl⟩
  | withdraw h =>
    obtain ⟨hactive, hnew⟩ := grantChecks_passed (s := s) (q := q) (by simp [hv]) (by simp [hv])
    exact withdraw_terminalsOk hs q h hidle hactive hnew
  | wrap p =>
    obtain ⟨hactive, hnew⟩ := grantChecks_passed (s := s) (q := q) (by simp [hv]) (by simp [hv])
    exact reserve_terminalsOk hs q p hactive hnew

theorem grantHead_terminalsOk {s : State} (hs : s.TerminalsOk) (hidle : s.engine = .idle) (i : LaneNo) (q : Request) :
    (s.grantHead i q).TerminalsOk :=
  settleGrant_terminalsOk (s := { s with intake := s.intake.granted i }) (hs.kept ⟨rfl, rfl⟩) hidle q

/-- The Terminal Table after a completion, apart from a close (R14, R16, R88 to R90). -/
theorem completeWrap_terminals (s : State) (k : ReservationKept) (w : ReservationWork) :
    (s.completeWrap k w).terminals = Vec.put s.terminals w.terminal (release .idle w.terminal
      ((s.term w.terminal).recorded w.completed w.amount (completionEntry w (s.completedRecord k w).id)
        (historyMarked w (s.term w.terminal).history))) := by
  unfold State.completeWrap
  dsimp only
  split <;> simp [State.addTotals, State.term, Terminal.recorded]

/-- A completion's history entry goes to a terminal that is not VACANT and does not hold its till sequence, as the
invariant says of the wrap in flight (R14, R88 to R90). -/
theorem completeWrap_terminalsOk {s : State} {k : ReservationKept} {w : ReservationWork} (hs : s.TerminalsOk)
    (he : s.engine = .busy k w) : (s.completeWrap k w).TerminalsOk := by
  obtain ⟨hv, hnew⟩ := hs.flight k w he
  rw [terminalsOk_iff] at hs ⊢
  rw [completeWrap_terminals, completeWrap_engine]
  exact hs.recorded (by simp) hv hnew (historyMarked_tills w _)

theorem execGrant_terminalsOk {s : State} (hs : s.TerminalsOk) : ∃ t, execGrant s = .next t ∧ t.TerminalsOk := by
  refine ⟨_, rfl, ?_⟩
  split
  · split
    · exact hs
    · next i hi =>
      split
      · exact hs
      · exact grantHead_terminalsOk hs (idle_of_eligible (grantLane_eligible hi)) i _
  · exact hs

theorem execCompletion_terminalsOk {s : State} (hs : s.TerminalsOk) : ∃ t, execCompletion s = .next t ∧ t.TerminalsOk := by
  refine ⟨_, rfl, ?_⟩
  split
  · split
    · next k w he => exact dueClose_terminalsOk (completeWrap_terminalsOk hs he) _ _
    · exact hs
  · exact hs

/-! ### Requests -/

/-- What the part does with a request before its own act keeps the table; so the request does where its act does. -/
theorem request_terminalsOk {α : Type} {kind : Byte} {ring : Nat} {parse : List Byte → Option α} {spoil : State → State}
    {l : LinkId} {corr : Byte} {p : List Byte} {act : α → State → State} {s : State} (hs : s.TerminalsOk)
    (hspoil : ∀ b, TableKept b (spoil b)) (hact : ∀ a b, b.TerminalsOk → (act a b).TerminalsOk) :
    (request kind ring parse spoil l corr p act s).TerminalsOk :=
  request_keeps State.TerminalsOk hs (fun h => h.kept ⟨rfl, rfl⟩) (fun h => h.kept ⟨rfl, rfl⟩)
    (fun _ h _ => h.kept ⟨rfl, rfl⟩) (fun _ _ h _ => h.kept ⟨rfl, rfl⟩)
    (fun b h _ => (h.kept (hspoil b)).kept ⟨rfl, rfl⟩) (fun a b _ _ h _ _ _ => hact a b h)

/-- A request whose act leaves the table and the engine as they are does so too. -/
theorem request_kept {α : Type} {kind : Byte} {ring : Nat} {parse : List Byte → Option α} {spoil : State → State}
    {l : LinkId} {corr : Byte} {p : List Byte} {act : α → State → State} {s : State}
    (hspoil : ∀ b, TableKept b (spoil b)) (hact : ∀ a b, TableKept b (act a b)) :
    TableKept s (request kind ring parse spoil l corr p act s) :=
  request_keeps (TableKept s) (TableKept.refl s) (fun h => h.trans ⟨rfl, rfl⟩) (fun h => h.trans ⟨rfl, rfl⟩)
    (fun _ h _ => h.trans ⟨rfl, rfl⟩) (fun _ _ h _ => h.trans ⟨rfl, rfl⟩)
    (fun b h _ => (h.trans (hspoil b)).trans ⟨rfl, rfl⟩) (fun a b _ _ h _ _ _ => h.trans (hact a b))

theorem laneRequest_kept {kind : Byte} {l : LinkId} {corr : Byte} {p : List Byte} {act : LaneNo → State → State} {s : State}
    (hact : ∀ i b, TableKept b (act i b)) : TableKept s (laneRequest kind l corr p act s) :=
  laneRequest_keeps (TableKept s) (TableKept.refl s) (fun h => h.trans ⟨rfl, rfl⟩) (fun h => h.trans ⟨rfl, rfl⟩)
    (fun _ h _ => h.trans ⟨rfl, rfl⟩) (fun _ _ h _ => h.trans ⟨rfl, rfl⟩)
    (fun i b _ h _ _ _ => h.trans (hact i b))

/-- The checks of R116 keep what the act on a route keeps. -/
theorem onRoute_terminalsOk {l : LinkId} {corr b : Byte} {act : RouteNo → RouteConfig → State → State} {s : State}
    (hs : s.TerminalsOk) (hact : ∀ r c, (act r c s).TerminalsOk) : (onRoute l corr b act s).TerminalsOk := by
  unfold onRoute
  split
  · split
    · exact hs.kept ⟨rfl, rfl⟩
    · split
      · exact hs.kept ⟨rfl, rfl⟩
      · exact hact _ _
  · exact hs.kept ⟨rfl, rfl⟩

theorem onRoute_kept {l : LinkId} {corr b : Byte} {act : RouteNo → RouteConfig → State → State} {s : State}
    (hact : ∀ r c, TableKept s (act r c s)) : TableKept s (onRoute l corr b act s) := by
  unfold onRoute
  split
  · split
    · exact ⟨rfl, rfl⟩
    · split
      · exact ⟨rfl, rfl⟩
      · exact hact _ _
  · exact ⟨rfl, rfl⟩

/-- The checks of R3 keep what the act on a terminal keeps. -/
theorem onTerminal_terminalsOk {α : Type} {l : LinkId} {corr b : Byte} {fields : Option α}
    {act : TerminalNo → α → State → State} {s : State} (hs : s.TerminalsOk) (hact : ∀ t a, (act t a s).TerminalsOk) :
    (onTerminal l corr b fields act s).TerminalsOk := by
  unfold onTerminal
  split
  · split
    · exact hs.kept ⟨rfl, rfl⟩
    · split
      · exact hs.kept ⟨rfl, rfl⟩
      · exact hact _ _
  · exact hs.kept ⟨rfl, rfl⟩

/-! ### Acts that leave the table and the engine as they are

Each branch of such an act is a refusal, or an update of other blocks. -/

theorem abandon_kept (s : State) : TableKept s s.abandon := ⟨rfl, rfl⟩

theorem wrapRequestAct_kept (kind : WrapKind) (i : LaneNo) (corr : Byte) (p : List Byte) (s : State) :
    TableKept s (wrapRequestAct kind i corr p s) := by
  unfold wrapRequestAct
  repeat' split
  all_goals exact ⟨rfl, rfl⟩

theorem laneHoldAct_kept (held : Bool) (l : LinkId) (corr b : Byte) (s : State) :
    TableKept s (laneHoldAct held l corr b s) := by
  unfold laneHoldAct
  repeat' split
  all_goals exact ⟨rfl, rfl⟩

theorem keyLoadAct_kept (l : LinkId) (corr : Byte) (b : LoadBytes) (s : State) : TableKept s (keyLoadAct l corr b s) := by
  unfold keyLoadAct keyLoadFamily
  repeat' split
  all_goals exact ⟨rfl, rfl⟩

theorem rollFamilyAct_kept (l : LinkId) (corr b : Byte) (s : State) : TableKept s (rollFamilyAct l corr b s) := by
  unfold rollFamilyAct rollFamilyOn
  dsimp only
  repeat' split
  all_goals exact ⟨rfl, rfl⟩

theorem retireFamilyAct_kept (l : LinkId) (corr b : Byte) (s : State) : TableKept s (retireFamilyAct l corr b s) := by
  unfold retireFamilyAct retireFamilyOn
  dsimp only
  repeat' split
  all_goals exact ⟨rfl, rfl⟩

theorem familyQueryAct_kept (l : LinkId) (corr b : Byte) (s : State) : TableKept s (familyQueryAct l corr b s) := by
  unfold familyQueryAct
  split <;> exact ⟨rfl, rfl⟩

theorem terminalQueryAct_kept (l : LinkId) (corr b : Byte) (s : State) : TableKept s (terminalQueryAct l corr b s) := by
  unfold terminalQueryAct
  split <;> exact ⟨rfl, rfl⟩

theorem setCeilingAct_kept (l : LinkId) (corr b : Byte) (digits : List Byte) (s : State) :
    TableKept s (setCeilingAct l corr b digits s) := by
  unfold setCeilingAct
  repeat' split
  all_goals exact ⟨rfl, rfl⟩

theorem routeUpAct_kept (l : LinkId) (corr : Byte) (r : RouteNo) (c : RouteConfig) (s : State) :
    TableKept s (routeUpAct l corr r c s) := by
  unfold routeUpAct
  dsimp only
  split <;> exact ⟨rfl, rfl⟩

theorem streamOpenAct_kept (l : LinkId) (corr n renew : Byte) (r : RouteNo) (c : RouteConfig) (s : State) :
    TableKept s (streamOpenAct l corr n renew r c s) := by
  unfold streamOpenAct
  repeat' split
  all_goals exact ⟨rfl, rfl⟩

theorem routeQueryAct_kept (l : LinkId) (corr b : Byte) (s : State) : TableKept s (routeQueryAct l corr b s) := by
  unfold routeQueryAct
  repeat' split
  all_goals exact ⟨rfl, rfl⟩

theorem setClockAct_kept (l : LinkId) (corr : Byte) (t : ClockTime) (s : State) : TableKept s (setClockAct l corr t s) := by
  unfold setClockAct
  repeat' split
  all_goals exact ⟨rfl, rfl⟩

theorem setCutoverAct_kept (l : LinkId) (corr : Byte) (b : Byte × Byte × Byte) (s : State) :
    TableKept s (setCutoverAct l corr b s) := by
  unfold setCutoverAct
  repeat' split
  all_goals exact ⟨rfl, rfl⟩

theorem setupBeginAct_kept (l : LinkId) (corr : Byte) (b : Byte × Byte) (s : State) :
    TableKept s (setupBeginAct l corr b s) := by
  unfold setupBeginAct
  repeat' split
  all_goals exact ⟨rfl, rfl⟩

theorem routeDefineAct_kept (l : LinkId) (corr : Byte) (b : DefineBytes) (s : State) :
    TableKept s (routeDefineAct l corr b s) := by
  unfold routeDefineAct routeDefineStaged
  repeat' split
  all_goals exact ⟨rfl, rfl⟩

theorem faultReadAct_kept (l : LinkId) (corr : Byte) (s : State) : TableKept s (faultReadAct l corr s) := by
  unfold faultReadAct
  dsimp only
  split <;> exact ⟨rfl, rfl⟩

/-! ### Events that leave the table and the engine as they are -/

theorem finishLoad_kept (s : State) (f : FamilyNo) (w : LoadWork) (root : Root) (check : BitVec 24) :
    TableKept s (s.finishLoad f w root check) := by
  unfold State.finishLoad
  dsimp only
  split <;> exact ⟨rfl, rfl⟩

theorem execLoadCompletion_kept (f : FamilyNo) (s : State) : ∃ t, execLoadCompletion f s = .next t ∧ TableKept s t := by
  refine ⟨_, rfl, ?_⟩
  split
  · split
    · exact finishLoad_kept _ _ _ _ _
    · exact TableKept.refl s
  · exact TableKept.refl s

theorem execRollCompletion_kept (f : FamilyNo) (s : State) : ∃ t, execRollCompletion f s = .next t ∧ TableKept s t := by
  refine ⟨_, rfl, ?_⟩
  split
  · split <;> exact ⟨rfl, rfl⟩
  · exact TableKept.refl s

theorem execTick_kept (s : State) : ∃ t, execTick s = .next t ∧ TableKept s t := by
  refine ⟨_, rfl, ?_⟩
  dsimp only
  split <;> exact ⟨rfl, rfl⟩

theorem execNearWarning_kept (s : State) : ∃ t, execNearWarning s = .next t ∧ TableKept s t := by
  refine ⟨_, rfl, ?_⟩
  split <;> exact ⟨rfl, rfl⟩

theorem execCutoverMatch_kept (s : State) : ∃ t, execCutoverMatch s = .next t ∧ TableKept s t := by
  refine ⟨_, rfl, ?_⟩
  repeat' split
  all_goals exact ⟨rfl, rfl⟩

theorem execCutoverClosingStart_kept (s : State) : ∃ t, execCutoverClosingStart s = .next t ∧ TableKept s t := by
  refine ⟨_, rfl, ?_⟩
  split <;> exact ⟨rfl, rfl⟩

theorem rollTurn_kept (s : State) (f : FamilyNo) : TableKept s (s.rollTurn f) := by
  unfold State.rollTurn
  dsimp only
  repeat' split
  all_goals exact ⟨rfl, rfl⟩

theorem execCutoverFamilyRoll_kept (s : State) : ∃ t, execCutoverFamilyRoll s = .next t ∧ TableKept s t := by
  refine ⟨_, rfl, ?_⟩
  split
  · split
    · split
      · exact TableKept.refl s
      · exact rollTurn_kept s _
    · exact TableKept.refl s
  · exact TableKept.refl s

theorem execFrameBad_kept (l : LinkId) (chars : List LineChar) (s : State) :
    ∃ t, execFrameBad l chars s = .next t ∧ TableKept s t := by
  refine ⟨_, rfl, ?_⟩
  repeat' split
  all_goals exact ⟨rfl, rfl⟩

/-- A frame that arrives leaves the table and the engine as they are, whether it is gone or taken. -/
theorem frameArrives_kept (l : LinkId) (body : List Byte) (s : State) :
    (∃ t, frameArrives l body s = .gone t ∧ TableKept s t) ∨ (∃ t, frameArrives l body s = .taken t ∧ TableKept s t) := by
  have hends : ∀ b, EndsFrom s l b → TableKept s b := by
    rintro b (rfl | rfl | rfl) <;> exact ⟨rfl, rfl⟩
  rcases frameArrives_cases l body s with ⟨t, he, hb | ⟨b, hb, rfl, -⟩⟩ | ⟨t, he, hb, -⟩
  · exact Or.inl ⟨t, he, hends t hb⟩
  · exact Or.inl ⟨_, he, (hends b hb).trans ⟨rfl, rfl⟩⟩
  · exact Or.inr ⟨t, he, hends t hb⟩

theorem execResetLine_kept (s : State) : ∃ t, execResetLine s = .next t ∧ TableKept s t := by
  refine ⟨_, rfl, ?_⟩
  split <;> exact ⟨rfl, rfl⟩

theorem execUnknownKind_kept (l : LinkId) (corr kind : Byte) (p : List Byte) (s : State) :
    ∃ t, execUnknownKind l corr kind p s = .next t ∧ TableKept s t := by
  refine ⟨_, rfl, ?_⟩
  split
  · exact TableKept.refl s
  · rcases frameArrives_kept l (kind :: corr :: p) s with ⟨t, he, hk⟩ | ⟨t, he, hk⟩ <;> rw [he]
    · exact hk
    · exact hk.trans ⟨rfl, rfl⟩

/-! ### Links (R72, R160) -/

/-- Discarding the answer of a wrap in flight leaves its terminal and till sequence (R72). -/
theorem TableOk.discard {e : Engine} {ts : Vector Terminal 64} (h : TableOk e ts) (i : LaneNo) :
    TableOk (e.discard i) ts := by
  refine h.engine fun k w he => ?_
  cases e with
  | idle => cases he
  | cut k' => cases he
  | busy k' w' =>
    refine ⟨k', w', rfl, ?_⟩
    simp only [Engine.discard] at he
    split at he <;> cases he <;> exact ⟨rfl, rfl⟩

theorem resetLink_terminalsOk {s : State} (hs : s.TerminalsOk) (l : LinkId) (rx : Receiver) :
    (s.resetLink l rx).TerminalsOk := by
  cases l with
  | lane i => exact (terminalsOk_iff _).mpr (((terminalsOk_iff s).mp hs).discard i)
  | dispatch => exact hs.kept ⟨rfl, rfl⟩
  | service => exact hs.kept ⟨rfl, rfl⟩

theorem execLinkReset_terminalsOk {s : State} (hs : s.TerminalsOk) (l : LinkId) (corr : Byte) (p : List Byte) :
    ∃ t, execLinkReset l corr p s = .next t ∧ t.TerminalsOk := by
  refine ⟨_, rfl, ?_⟩
  split
  · split
    · rcases frameArrives_kept l (0x0F#8 :: corr :: p) s with ⟨t, he, hk⟩ | ⟨t, he, hk⟩ <;> rw [he] <;> exact hs.kept hk
    · exact (resetLink_terminalsOk hs l .hunting).kept ⟨rfl, rfl⟩
  · exact hs

theorem execLineBreak_terminalsOk {s : State} (hs : s.TerminalsOk) (l : LinkId) :
    ∃ t, execLineBreak l s = .next t ∧ t.TerminalsOk := by
  refine ⟨_, rfl, ?_⟩
  have hlow : (s.setLink l { s.link l with low := true }).TerminalsOk := hs.kept ⟨rfl, rfl⟩
  dsimp only
  split
  · exact resetLink_terminalsOk hlow l .inBreak
  · exact hlow

/-! ### Terminal commands (R4 to R10) -/

/-- A command on an ACTIVE or HELD entry keeps the table where its act does (R5, R6, R8 to R10). -/
theorem onEnrolled_terminalsOk {l : LinkId} {corr : Byte} {t : TerminalNo} {act : State → State} {s : State}
    (hs : s.TerminalsOk) (hact : (s.term t).state ≠ .vacant → (act s).TerminalsOk) :
    (onEnrolled l corr t act s).TerminalsOk := by
  unfold onEnrolled
  split
  · exact hs.kept ⟨rfl, rfl⟩
  · exact hs.kept ⟨rfl, rfl⟩
  · next hst => exact hact (by simp [hst])
  · next hst => exact hact (by simp [hst])

theorem enrolAct_terminalsOk {s : State} (hs : s.TerminalsOk) (l : LinkId) (corr : Byte) (t : TerminalNo) (a : Place × Nat) :
    (enrolAct l corr t a s).TerminalsOk := by
  have henrol : (s.setTerm t (a.1.enrolled a.2)).TerminalsOk :=
    setTerm_edit_terminalsOk hs (by simp [Place.enrolled]) (List.nil_sublist _)
  unfold enrolAct
  split
  · exact hs.kept ⟨rfl, rfl⟩
  · exact hs.kept ⟨rfl, rfl⟩
  · exact hs.kept ⟨rfl, rfl⟩
  · split
    · split
      · exact hs.kept ⟨rfl, rfl⟩
      · exact henrol.kept ⟨rfl, rfl⟩
    · exact hs.kept ⟨rfl, rfl⟩

theorem holdTerminalAct_terminalsOk {s : State} (hs : s.TerminalsOk) (l : LinkId) (corr : Byte) (t : TerminalNo) :
    (holdTerminalAct l corr t s).TerminalsOk := by
  have hheld : (s.setTerm t { s.term t with state := .held }).TerminalsOk :=
    setTerm_edit_terminalsOk hs (by simp) (List.Sublist.refl _)
  exact onEnrolled_terminalsOk hs fun _ => hheld.kept ⟨rfl, rfl⟩

theorem releaseTerminalAct_terminalsOk {s : State} (hs : s.TerminalsOk) (l : LinkId) (corr : Byte) (t : TerminalNo) :
    (releaseTerminalAct l corr t s).TerminalsOk := by
  have hactive : (s.setTerm t { s.term t with state := .active }).TerminalsOk :=
    setTerm_edit_terminalsOk hs (by simp) (List.Sublist.refl _)
  refine onEnrolled_terminalsOk hs fun _ => ?_
  unfold releaseTerminalEnrolled
  split
  · exact hs.kept ⟨rfl, rfl⟩
  · exact hactive.kept ⟨rfl, rfl⟩

theorem moveAct_terminalsOk {s : State} (hs : s.TerminalsOk) (l : LinkId) (corr : Byte) (t : TerminalNo) (p : Place) :
    (moveAct l corr t p s).TerminalsOk := by
  refine onEnrolled_terminalsOk hs fun hv => ?_
  have hmove : (s.setTerm t ((s.term t).movedTo p)).TerminalsOk := setTerm_edit_terminalsOk hs hv (List.nil_sublist _)
  unfold moveEnrolled
  split
  · split
    · split
      · exact hs.kept ⟨rfl, rfl⟩
      · exact hmove.kept ⟨rfl, rfl⟩
    · exact hs.kept ⟨rfl, rfl⟩
  · exact hs.kept ⟨rfl, rfl⟩

theorem retireAct_terminalsOk {s : State} (hs : s.TerminalsOk) (l : LinkId) (corr : Byte) (t : TerminalNo) :
    (retireAct l corr t s).TerminalsOk := by
  refine onEnrolled_terminalsOk hs fun _ => ?_
  have hclosing : (s.setTerm t { s.term t with state := .closing }).TerminalsOk :=
    setTerm_edit_terminalsOk hs (by simp) (List.Sublist.refl _)
  exact (releaseTest_terminalsOk hclosing t).kept ⟨rfl, rfl⟩

theorem setFloorAct_terminalsOk {s : State} (hs : s.TerminalsOk) (l : LinkId) (corr : Byte) (t : TerminalNo) (floor : Nat) :
    (setFloorAct l corr t floor s).TerminalsOk := by
  refine onEnrolled_terminalsOk hs fun hv => ?_
  have hfloor : (s.setTerm t { s.term t with floor := floor }).TerminalsOk :=
    setTerm_edit_terminalsOk hs hv (List.Sublist.refl _)
  exact hfloor.kept ⟨rfl, rfl⟩

/-- A terminal command whose payload is its terminal number alone keeps the table where its act does. -/
theorem terminalCommand_terminalsOk {kind : Byte} {l : LinkId} {corr : Byte} {p : List Byte}
    {act : TerminalNo → State → State} {s : State} (hs : s.TerminalsOk)
    (hact : ∀ t b, b.TerminalsOk → (act t b).TerminalsOk) : (terminalCommand kind l corr p act s).TerminalsOk :=
  request_terminalsOk hs TableKept.refl fun _ b hb => onTerminal_terminalsOk hb fun t _ => hact t b hb

/-! ### Route commands, transmitters and closes -/

theorem routeDownAct_terminalsOk {s : State} (hs : s.TerminalsOk) (l : LinkId) (corr : Byte) (r : RouteNo) (c : RouteConfig) :
    (routeDownAct l corr r c s).TerminalsOk := by
  unfold routeDownAct
  dsimp only
  split
  · exact (takeDown_terminalsOk hs r .command .routeDown).kept ⟨rfl, rfl⟩
  · exact hs.kept ⟨rfl, rfl⟩

theorem pullOneAct_terminalsOk {s : State} (hs : s.TerminalsOk) (l : LinkId) (corr : Byte) (r : RouteNo) (c : RouteConfig) :
    (pullOneAct l corr r c s).TerminalsOk := by
  unfold pullOneAct
  split
  · split
    · split
      · exact hs.kept ⟨rfl, rfl⟩
      · next ho => exact (offer_terminalsOk hs ho).kept ⟨rfl, rfl⟩
    · exact hs.kept ⟨rfl, rfl⟩
  · exact hs.kept ⟨rfl, rfl⟩

theorem pullBlockAct_terminalsOk {s : State} (hs : s.TerminalsOk) (l : LinkId) (corr n : Byte) (r : RouteNo)
    (c : RouteConfig) : (pullBlockAct l corr n r c s).TerminalsOk := by
  unfold pullBlockAct
  split
  · have hrun := offerRun_keeps State.TerminalsOk (r := r) (c := c) (corr := corr)
      (fun _ _ _ hb _ ho => offer_terminalsOk hb ho) (blockCount n.toNat) s hs
    exact hrun.kept ⟨rfl, rfl⟩
  · exact hs.kept ⟨rfl, rfl⟩

theorem ackOneAct_terminalsOk {s : State} (hs : s.TerminalsOk) (l : LinkId) (corr : Byte) (batch sq : Nat) (r : RouteNo)
    (c : RouteConfig) : (ackOneAct l corr batch sq r c s).TerminalsOk := by
  unfold ackOneAct
  split
  · exact (acknowledge_terminalsOk hs r c _).kept ⟨rfl, rfl⟩
  · exact hs.kept ⟨rfl, rfl⟩

theorem ackOldestAct_terminalsOk {s : State} (hs : s.TerminalsOk) (l : LinkId) (corr : Byte) (r : RouteNo) (c : RouteConfig) :
    (ackOldestAct l corr r c s).TerminalsOk := by
  unfold ackOldestAct
  split
  · exact hs.kept ⟨rfl, rfl⟩
  · exact (acknowledge_terminalsOk hs r c _).kept ⟨rfl, rfl⟩

theorem ackThroughAct_terminalsOk {s : State} (hs : s.TerminalsOk) (l : LinkId) (corr : Byte) (batch sq : Nat) (r : RouteNo)
    (c : RouteConfig) : (ackThroughAct l corr batch sq r c s).TerminalsOk := by
  have hacked := acknowledgeAll_keeps State.TerminalsOk (r := r) (c := c)
    (fun _ id hb => acknowledge_terminalsOk hb r c id) (s.covered r batch sq) s hs
  exact hacked.kept ⟨rfl, rfl⟩

theorem execStreamOffer_terminalsOk {s : State} (hs : s.TerminalsOk) (l : LinkId) :
    ∃ t, execStreamOffer l s = .next t ∧ t.TerminalsOk := by
  refine ⟨_, rfl, ?_⟩
  split
  · exact nextMessage_terminalsOk hs l
  · exact hs

theorem execTransmitComplete_terminalsOk {s : State} (hs : s.TerminalsOk) (l : LinkId) :
    ∃ t, execTransmitComplete l s = .next t ∧ t.TerminalsOk := by
  refine ⟨_, rfl, ?_⟩
  split
  · refine nextMessage_terminalsOk ?_ l
    exact hs.kept ⟨rfl, rfl⟩
  · exact hs

theorem execAckTimerExpiry_terminalsOk {s : State} (hs : s.TerminalsOk) (r : RouteNo) :
    ∃ t, execAckTimerExpiry r s = .next t ∧ t.TerminalsOk := by
  refine ⟨_, rfl, ?_⟩
  split
  · exact (takeDown_terminalsOk hs r .timeout .timeout).kept ⟨rfl, rfl⟩
  · exact hs

theorem execCutoverRouteClose_terminalsOk {s : State} (hs : s.TerminalsOk) :
    ∃ t, execCutoverRouteClose s = .next t ∧ t.TerminalsOk := by
  refine ⟨_, rfl, ?_⟩
  split
  · split
    · next r _ => exact (askClose_terminalsOk hs r).kept ⟨rfl, rfl⟩
    · exact hs.kept ⟨rfl, rfl⟩
  · exact hs

theorem closeBatchAct_terminalsOk {s : State} (hs : s.TerminalsOk) (l : LinkId) (corr b : Byte) :
    (closeBatchAct l corr b s).TerminalsOk := by
  unfold closeBatchAct
  split
  · split
    · exact hs.kept ⟨rfl, rfl⟩
    · next r _ =>
      split
      · split
        · exact (requestClose_terminalsOk hs r .manual).kept ⟨rfl, rfl⟩
        · exact hs.kept ⟨rfl, rfl⟩
      · exact hs.kept ⟨rfl, rfl⟩
  · exact hs.kept ⟨rfl, rfl⟩

theorem execDeferredClose_terminalsOk {s : State} (hs : s.TerminalsOk) (r : RouteNo) :
    ∃ t, execDeferredClose r s = .next t ∧ t.TerminalsOk := by
  refine ⟨_, rfl, ?_⟩
  split
  · exact settleDeferred_terminalsOk hs r
  · exact hs

/-! ### Setup, ERASE and power (R19 to R21, R171 to R173) -/

theorem install_terminalsOk {s : State} (hs : s.TerminalsOk) (g : Staged) : (s.install g).TerminalsOk := by
  rw [terminalsOk_iff] at hs ⊢
  intro t
  simp only [State.install, Vec.get_gen]
  exact (hs t).atSetup _ _

theorem setupEndAct_terminalsOk {s : State} (hs : s.TerminalsOk) (l : LinkId) (corr : Byte) :
    (setupEndAct l corr s).TerminalsOk := by
  unfold setupEndAct
  split
  · split
    · next g _ =>
      split
      · split
        · exact (install_terminalsOk hs g).kept ⟨rfl, rfl⟩
        · exact hs.kept ⟨rfl, rfl⟩
      · exact hs.kept ⟨rfl, rfl⟩
    · exact hs.kept ⟨rfl, rfl⟩
  · exact hs.kept ⟨rfl, rfl⟩

/-- A state with every entry VACANT and an IDLE engine meets the invariant (R21). -/
theorem vacantTable_terminalsOk {s : State} (ht : s.terminals = Vector.replicate 64 Terminal.vacant)
    (he : s.engine = .idle) : s.TerminalsOk := by
  rw [terminalsOk_iff, ht, he]
  intro t
  rw [Vec.get_replicate]
  exact Terminal.vacant_fits rfl

theorem eraseAct_terminalsOk (l : LinkId) (corr : Byte) (s : State) : (eraseAct l corr s).TerminalsOk :=
  vacantTable_terminalsOk rfl rfl

theorem execStoreLost_terminalsOk {s : State} (hs : s.TerminalsOk) (straps : BitVec 6) :
    ∃ t, execStoreLost straps s = .next t ∧ t.TerminalsOk := by
  refine ⟨_, rfl, ?_⟩
  split
  · exact vacantTable_terminalsOk rfl rfl
  · exact hs

/-- Loss of supply leaves no wrap in flight (R75, R171). -/
theorem lapse_not_busy (e : Engine) (k : ReservationKept) (w : ReservationWork) : e.lapse ≠ .busy k w := by
  cases e <;> simp [Engine.lapse]

theorem execPowerLoss_terminalsOk {s : State} (hs : s.TerminalsOk) : ∃ t, execPowerLoss s = .next t ∧ t.TerminalsOk := by
  refine ⟨_, rfl, ?_⟩
  split
  · exact hs
  · exact (terminalsOk_iff _).mpr (((terminalsOk_iff s).mp hs).unserved (lapse_not_busy s.engine))

theorem undoFamily_kept (s : State) (f : FamilyNo) : TableKept s (s.undoFamily f) := by
  obtain ⟨hterms, hengine⟩ := undoFamily_terms s f
  exact ⟨hterms, hengine⟩

theorem rollWhole_kept (s : State) (f : FamilyNo) : TableKept s (s.rollWhole f) := by
  unfold State.rollWhole
  dsimp only
  repeat' split
  all_goals exact ⟨rfl, rfl⟩

theorem resumeClosing_terminalsOk {s : State} (hs : s.TerminalsOk) : s.resumeClosing.TerminalsOk := by
  unfold State.resumeClosing
  split
  · exact foldl_keeps State.TerminalsOk _ (fun _ r h => askClose_terminalsOk h r) _ _ hs
  · exact hs

theorem resumeRolling_terminalsOk {s : State} (hs : s.TerminalsOk) : s.resumeRolling.TerminalsOk := by
  unfold State.resumeRolling
  split
  · exact foldl_keeps State.TerminalsOk _ (fun b f h => h.kept (rollWhole_kept b f)) _ _ hs
  · exact hs

theorem resume_terminalsOk {s : State} (hs : s.TerminalsOk) : s.resume.TerminalsOk := by
  unfold State.resume
  split
  · exact hs
  · exact (resumeRolling_terminalsOk hs).kept ⟨rfl, rfl⟩
  · exact (resumeRolling_terminalsOk (resumeClosing_terminalsOk hs)).kept ⟨rfl, rfl⟩

/-- The warm restore, stage by stage: the wrap in flight abandoned, the routes rewound, the closes due performed, the
families undone, the entries release-tested, the procedure resumed (R20, R172). -/
theorem warmRestore_terminalsOk {s : State} (hs : s.TerminalsOk) (straps : BitVec 6) : (s.warmRestore straps).TerminalsOk := by
  have hstart : (restoreStart s straps).TerminalsOk :=
    (terminalsOk_iff _).mpr (((terminalsOk_iff s).mp hs).unserved fun k w he => by cases he)
  rw [warmRestore_eq]
  have hrewound : (rewindEach (restoreStart s straps) (List.finRange 4)).TerminalsOk :=
    foldl_keeps State.TerminalsOk _ (fun _ r h => rewind_terminalsOk h r) _ _ hstart
  have hsettled : (rewindEach (restoreStart s straps) (List.finRange 4)).settleAll.TerminalsOk :=
    foldl_keeps State.TerminalsOk _ (fun _ r h => settleWaiting_terminalsOk h r) _ _ hrewound
  have hundone : (rewindEach (restoreStart s straps) (List.finRange 4)).settleAll.undoAll.TerminalsOk :=
    foldl_keeps State.TerminalsOk _ (fun b f h => h.kept (undoFamily_kept b f)) _ _ hsettled
  generalize (rewindEach (restoreStart s straps) (List.finRange 4)).settleAll.undoAll = u at hundone ⊢
  have hdispatch : u.restoreDispatch.TerminalsOk := hundone.kept ⟨rfl, rfl⟩
  exact resume_terminalsOk (releaseAll_terminalsOk hdispatch)

theorem execWarmRestore_terminalsOk {s : State} (hs : s.TerminalsOk) (straps : BitVec 6) :
    ∃ t, execWarmRestore straps s = .next t ∧ t.TerminalsOk := by
  refine ⟨_, rfl, ?_⟩
  split
  · exact warmRestore_terminalsOk hs straps
  · exact hs

/-- An event that leaves the table and the engine as they are keeps the invariant. -/
theorem keeps_of_kept {o : Host.Outcome State Fault Refusal} {s : State} (hs : s.TerminalsOk)
    (h : ∃ t, o = .next t ∧ TableKept s t) : ∃ t, o = .next t ∧ t.TerminalsOk := by
  obtain ⟨t, he, hk⟩ := h
  exact ⟨t, he, hs.kept hk⟩

/-- Every command answers next and keeps the terminal entries in order. -/
theorem exec_terminalsOk (c : Instr) {s : State} (hs : s.TerminalsOk) : ∃ t, exec c s = .next t ∧ t.TerminalsOk := by
  have hspoil : ∀ b : State, TableKept b (id b) := TableKept.refl
  cases c with
  | auth l corr p => exact ⟨_, rfl, hs.kept (laneRequest_kept fun i b => wrapRequestAct_kept .auth i corr p b)⟩
  | refund l corr p => exact ⟨_, rfl, hs.kept (laneRequest_kept fun i b => wrapRequestAct_kept .refund i corr p b)⟩
  | reversal l corr p => exact ⟨_, rfl, hs.kept (laneRequest_kept fun i b => wrapRequestAct_kept .reversal i corr p b)⟩
  | laneStatus l corr p => exact ⟨_, rfl, hs.kept (laneRequest_kept fun _ _ => ⟨rfl, rfl⟩)⟩
  | linkReset l corr p => exact execLinkReset_terminalsOk hs l corr p
  | frameBad l chars => exact keeps_of_kept hs (execFrameBad_kept l chars s)
  | lineBreak l => exact execLineBreak_terminalsOk hs l
  | lineBreakEnd l => exact ⟨_, rfl, hs.kept ⟨rfl, rfl⟩⟩
  | grant => exact execGrant_terminalsOk hs
  | completion => exact execCompletion_terminalsOk hs
  | enrol l corr p =>
    exact ⟨_, rfl, request_terminalsOk hs hspoil fun _ _ hb =>
      onTerminal_terminalsOk hb fun t a => enrolAct_terminalsOk hb l corr t a⟩
  | holdTerminal l corr p =>
    exact ⟨_, rfl, terminalCommand_terminalsOk hs fun t _ hb => holdTerminalAct_terminalsOk hb l corr t⟩
  | releaseTerminal l corr p =>
    exact ⟨_, rfl, terminalCommand_terminalsOk hs fun t _ hb => releaseTerminalAct_terminalsOk hb l corr t⟩
  | move l corr p =>
    exact ⟨_, rfl, request_terminalsOk hs hspoil fun _ _ hb =>
      onTerminal_terminalsOk hb fun t a => moveAct_terminalsOk hb l corr t a⟩
  | retire l corr p =>
    exact ⟨_, rfl, terminalCommand_terminalsOk hs fun t _ hb => retireAct_terminalsOk hb l corr t⟩
  | setFloor l corr p =>
    exact ⟨_, rfl, request_terminalsOk hs hspoil fun _ _ hb =>
      onTerminal_terminalsOk hb fun t a => setFloorAct_terminalsOk hb l corr t a⟩
  | terminalQuery l corr p => exact ⟨_, rfl, hs.kept (request_kept hspoil (terminalQueryAct_kept l corr))⟩
  | keyLoad l corr p => exact ⟨_, rfl, hs.kept (request_kept hspoil (keyLoadAct_kept l corr))⟩
  | loadCompletion f => exact keeps_of_kept hs (execLoadCompletion_kept f s)
  | rollFamily l corr p => exact ⟨_, rfl, hs.kept (request_kept hspoil (rollFamilyAct_kept l corr))⟩
  | rollCompletion f => exact keeps_of_kept hs (execRollCompletion_kept f s)
  | retireFamily l corr p => exact ⟨_, rfl, hs.kept (request_kept hspoil (retireFamilyAct_kept l corr))⟩
  | familyQuery l corr p => exact ⟨_, rfl, hs.kept (request_kept hspoil (familyQueryAct_kept l corr))⟩
  | setCeiling l corr p =>
    exact ⟨_, rfl, hs.kept (request_kept hspoil fun a b => setCeilingAct_kept l corr a.1 a.2 b)⟩
  | holdLane l corr p => exact ⟨_, rfl, hs.kept (request_kept hspoil (laneHoldAct_kept true l corr))⟩
  | releaseLane l corr p => exact ⟨_, rfl, hs.kept (request_kept hspoil (laneHoldAct_kept false l corr))⟩
  | routeUp l corr p =>
    exact ⟨_, rfl, hs.kept (request_kept hspoil fun _ b => onRoute_kept fun r c => routeUpAct_kept l corr r c b)⟩
  | routeDown l corr p =>
    exact ⟨_, rfl, request_terminalsOk hs hspoil fun _ _ hb =>
      onRoute_terminalsOk hb fun r c => routeDownAct_terminalsOk hb l corr r c⟩
  | pullOne l corr p =>
    exact ⟨_, rfl, request_terminalsOk hs hspoil fun _ _ hb =>
      onRoute_terminalsOk hb fun r c => pullOneAct_terminalsOk hb l corr r c⟩
  | pullBlock l corr p =>
    exact ⟨_, rfl, request_terminalsOk hs hspoil fun a _ hb =>
      onRoute_terminalsOk hb fun r c => pullBlockAct_terminalsOk hb l corr a.2 r c⟩
  | streamOpen l corr p =>
    exact ⟨_, rfl, hs.kept (request_kept hspoil fun a b =>
      onRoute_kept fun r c => streamOpenAct_kept l corr a.2.1 a.2.2 r c b)⟩
  | streamClose l corr p =>
    exact ⟨_, rfl, hs.kept (request_kept hspoil fun _ _ => onRoute_kept fun _ _ => ⟨rfl, rfl⟩)⟩
  | streamOffer l => exact execStreamOffer_terminalsOk hs l
  | transmitComplete l => exact execTransmitComplete_terminalsOk hs l
  | ackOne l corr p =>
    exact ⟨_, rfl, request_terminalsOk hs hspoil fun a _ hb =>
      onRoute_terminalsOk hb fun r c => ackOneAct_terminalsOk hb l corr a.2.1 a.2.2 r c⟩
  | ackOldest l corr p =>
    exact ⟨_, rfl, request_terminalsOk hs hspoil fun _ _ hb =>
      onRoute_terminalsOk hb fun r c => ackOldestAct_terminalsOk hb l corr r c⟩
  | ackThrough l corr p =>
    exact ⟨_, rfl, request_terminalsOk hs hspoil fun a _ hb =>
      onRoute_terminalsOk hb fun r c => ackThroughAct_terminalsOk hb l corr a.2.1 a.2.2 r c⟩
  | ackTimerExpiry r => exact execAckTimerExpiry_terminalsOk hs r
  | tick => exact keeps_of_kept hs (execTick_kept s)
  | nearWarning => exact keeps_of_kept hs (execNearWarning_kept s)
  | cutoverMatch => exact keeps_of_kept hs (execCutoverMatch_kept s)
  | cutoverClosingStart => exact keeps_of_kept hs (execCutoverClosingStart_kept s)
  | cutoverRouteClose => exact execCutoverRouteClose_terminalsOk hs
  | cutoverFamilyRoll => exact keeps_of_kept hs (execCutoverFamilyRoll_kept s)
  | setClock l corr p => exact ⟨_, rfl, hs.kept (request_kept hspoil (setClockAct_kept l corr))⟩
  | setCutover l corr p => exact ⟨_, rfl, hs.kept (request_kept hspoil (setCutoverAct_kept l corr))⟩
  | closeBatch l corr p =>
    exact ⟨_, rfl, request_terminalsOk hs hspoil fun a _ hb => closeBatchAct_terminalsOk hb l corr a⟩
  | deferredClose r => exact execDeferredClose_terminalsOk hs r
  | setupBegin l corr p => exact ⟨_, rfl, hs.kept (request_kept abandon_kept (setupBeginAct_kept l corr))⟩
  | routeDefine l corr p => exact ⟨_, rfl, hs.kept (request_kept abandon_kept (routeDefineAct_kept l corr))⟩
  | setupEnd l corr p =>
    exact ⟨_, rfl, request_terminalsOk hs abandon_kept fun _ _ hb => setupEndAct_terminalsOk hb l corr⟩
  | statusRead l corr p => exact ⟨_, rfl, hs.kept (request_kept hspoil fun _ _ => ⟨rfl, rfl⟩)⟩
  | faultRead l corr p => exact ⟨_, rfl, hs.kept (request_kept hspoil fun _ b => faultReadAct_kept l corr b)⟩
  | routeQuery l corr p => exact ⟨_, rfl, hs.kept (request_kept hspoil (routeQueryAct_kept l corr))⟩
  | erase l corr p => exact ⟨_, rfl, request_terminalsOk hs hspoil fun _ b _ => eraseAct_terminalsOk l corr b⟩
  | warmRestore straps => exact execWarmRestore_terminalsOk hs straps
  | storeLost straps => exact execStoreLost_terminalsOk hs straps
  | resetLine => exact keeps_of_kept hs (execResetLine_kept s)
  | powerLoss => exact execPowerLoss_terminalsOk hs
  | retentionLoss => exact ⟨_, rfl, hs.kept ⟨rfl, rfl⟩⟩
  | unknownKind l corr kind p => exact keeps_of_kept hs (execUnknownKind_kept l corr kind p s)

/-- Settles O56: each entry of the table is followed through every operation that edits it, beside the engine. -/
theorem stepKeepsTerminalsOk : Obligations.StepKeepsTerminalsOk := by
  intro s t hs hstep
  unfold step at hstep
  split at hstep
  · cases hstep
    exact hs
  · next c rest _ =>
    have hb : State.TerminalsOk { s with pending := rest } := hs.kept ⟨rfl, rfl⟩
    obtain ⟨u, hu, hok⟩ := exec_terminalsOk c hb
    rw [hu] at hstep
    cases hstep
    exact hok

/-! ### The terminal commands on a link that hears them (R3) -/

/-- Dispatch link and service port may send the terminal commands (R155). -/
theorem linkRing_of_isPartner {l : LinkId} (h : isPartner l = true) : linkRing l ≤ 1 := by
  cases l with
  | lane i => cases h
  | dispatch => exact le_refl _
  | service => exact Nat.zero_le _

/-- A terminal command whose payload is its terminal number goes on to the checks of R3. -/
theorem terminalCommand_heard {kind : Byte} {l : LinkId} {corr b : Byte} {act : TerminalNo → State → State} {s : State}
    (h : s.Hears l 1) (hl : isPartner l = true) :
    terminalCommand kind l corr [b] act s = onTerminal l corr b (some ()) (fun t _ => act t) s :=
  request_taken h (linkRing_of_isPartner hl) rfl

theorem terminalCommand_taken {kind : Byte} {l : LinkId} {corr b : Byte} {act : TerminalNo → State → State} {s : State}
    {t : TerminalNo} (h : s.Hears l 1) (hl : isPartner l = true) (hp : s.status.part = .running) (hb : b.toNat = t.val) :
    terminalCommand kind l corr [b] act s = act t s :=
  (terminalCommand_heard h hl).trans (onTerminal_taken hp hb)

theorem terminalCommand_range {kind : Byte} {l : LinkId} {corr b : Byte} {act : TerminalNo → State → State} {s : State}
    (h : s.Hears l 1) (hl : isPartner l = true) (hp : s.status.part = .running) (hb : 64 ≤ b.toNat) :
    terminalCommand kind l corr [b] act s = s.answer l corr .terminalRange :=
  (terminalCommand_heard h hl).trans (onTerminal_range hp hb)

/-- A packed field of six bytes, byte by byte. -/
theorem six_bytes {bs : List Byte} (h : bs.length = 6) : ∃ d1 d2 d3 d4 d5 d6, bs = [d1, d2, d3, d4, d5, d6] :=
  match bs, h with
  | [d1, d2, d3, d4, d5, d6], _ => ⟨d1, d2, d3, d4, d5, d6, rfl⟩

/-- ENROL goes on to the checks of R3 with its fields as they lie in its eleven bytes. -/
theorem exec_enrol_heard {l : LinkId} {corr bt bl br bf bd : Byte} {floor : List Byte} {s : State} (h : s.Hears l 11)
    (hl : isPartner l = true) (hf : floor.length = 6) :
    exec (.enrol l corr ([bt, bl, br, bf, bd] ++ floor)) s =
      .next (onTerminal l corr bt (enrolFields ⟨bt, bl, br, bf, bd⟩ floor) (enrolAct l corr) s) := by
  obtain ⟨d1, d2, d3, d4, d5, d6, rfl⟩ := six_bytes hf
  exact congrArg Host.Outcome.next (request_taken (parse := parseEnrol)
    (p := [bt, bl, br, bf, bd, d1, d2, d3, d4, d5, d6]) h (linkRing_of_isPartner hl) rfl)

theorem exec_move_heard {l : LinkId} {corr bt bl br bf bd : Byte} {s : State} (h : s.Hears l 5) (hl : isPartner l = true) :
    exec (.move l corr [bt, bl, br, bf, bd]) s =
      .next (onTerminal l corr bt (PlaceBytes.place ⟨bt, bl, br, bf, bd⟩) (moveAct l corr) s) :=
  congrArg Host.Outcome.next (request_taken (parse := parseMove) (p := [bt, bl, br, bf, bd]) h
    (linkRing_of_isPartner hl) rfl)

theorem exec_setFloor_heard {l : LinkId} {corr b : Byte} {floor : List Byte} {s : State} (h : s.Hears l 7)
    (hl : isPartner l = true) (hf : floor.length = 6) :
    exec (.setFloor l corr (b :: floor)) s = .next (onTerminal l corr b (packedOf floor) (setFloorAct l corr) s) := by
  obtain ⟨d1, d2, d3, d4, d5, d6, rfl⟩ := six_bytes hf
  exact congrArg Host.Outcome.next (request_taken (parse := parsePacked) (p := [b, d1, d2, d3, d4, d5, d6]) h
    (linkRing_of_isPartner hl) rfl)

/-! ### Fields in range and out of range (R3) -/

theorem byteIn_zero_of_le {hi : Nat} {b : Byte} (h : b.toNat ≤ hi) : byteIn 0 hi b = some b.toNat := by
  simp [byteIn, h]

theorem byteIn_none_of_lt {lo hi : Nat} {b : Byte} (h : hi < b.toNat) : byteIn lo hi b = none := by
  simp [byteIn, Nat.not_le.mpr h]

theorem place_of_range {bt bl br bf bd : Byte} {i : LaneNo} {r : RouteNo} {f : FamilyNo} (hi : bl.toNat = i.val)
    (hr : br.toNat = r.val) (hf : bf.toNat = f.val) (hd : bd.toNat ≤ 3) :
    PlaceBytes.place ⟨bt, bl, br, bf, bd⟩ = some ⟨i, r, f, bd.toNat⟩ := by
  simp [PlaceBytes.place, indexOf_val bl i hi, indexOf_val br r hr, indexOf_val bf f hf, byteIn_zero_of_le hd]

/-- One field out of range leaves no place. -/
theorem place_eq_none {bt bl br bf bd : Byte} (h : 4 ≤ bl.toNat ∨ 4 ≤ br.toNat ∨ 8 ≤ bf.toNat ∨ 4 ≤ bd.toNat) :
    PlaceBytes.place ⟨bt, bl, br, bf, bd⟩ = none := by
  unfold PlaceBytes.place
  split
  · next hl hr hf hd =>
    rcases h with h | h | h | h
    · simp [indexOf_none bl h] at hl
    · simp [indexOf_none br h] at hr
    · simp [indexOf_none bf h] at hf
    · simp [byteIn_none_of_lt (lo := 0) h] at hd
  · rfl

theorem packedOf_eq_none {bs : List Byte} (h : ∃ x ∈ nibblesOf bs, 9 < x) : packedOf bs = none := by
  obtain ⟨x, hx, h9⟩ := h
  rw [packedOf_eq, if_neg fun hall => absurd (hall x hx) (by omega)]

theorem enrolFields_of_range {b : PlaceBytes} {floor : List Byte} {p : Place} {v : Nat} (hb : b.place = some p)
    (hv : packedOf floor = some v) : enrolFields b floor = some (p, v) := by
  simp [enrolFields, hb, hv]

theorem enrolFields_eq_none {b : PlaceBytes} {floor : List Byte} (h : b.place = none ∨ packedOf floor = none) :
    enrolFields b floor = none := by
  unfold enrolFields
  split
  · next hb hv =>
    rcases h with h | h
    · simp [h] at hb
    · simp [h] at hv
  · rfl

/-! ### The acts on an entry, by its state (R4 to R10) -/

theorem onEnrolled_vacant {l : LinkId} {corr : Byte} {t : TerminalNo} {act : State → State} {s : State}
    (h : (s.term t).state = .vacant) : onEnrolled l corr t act s = s.answer l corr .terminalVacant := by
  simp [onEnrolled, h]

theorem onEnrolled_closing {l : LinkId} {corr : Byte} {t : TerminalNo} {act : State → State} {s : State}
    (h : (s.term t).state = .closing) : onEnrolled l corr t act s = s.answer l corr .terminalClosing := by
  simp [onEnrolled, h]

theorem onEnrolled_taken {l : LinkId} {corr : Byte} {t : TerminalNo} {act : State → State} {s : State}
    (h : (s.term t).state = .active ∨ (s.term t).state = .held) : onEnrolled l corr t act s = act s := by
  rcases h with h | h <;> simp [onEnrolled, h]

theorem enrolAct_busy {l : LinkId} {corr : Byte} {t : TerminalNo} {a : Place × Nat} {s : State}
    (h : (s.term t).state = .active ∨ (s.term t).state = .held) : enrolAct l corr t a s = s.answer l corr .terminalBusy := by
  rcases h with h | h <;> simp [enrolAct, h]

theorem enrolAct_closing {l : LinkId} {corr : Byte} {t : TerminalNo} {a : Place × Nat} {s : State}
    (h : (s.term t).state = .closing) : enrolAct l corr t a s = s.answer l corr .terminalClosing := by
  simp [enrolAct, h]

/-- ENROL of a VACANT entry: the route, then the family, then its effect (R4). -/
theorem enrolAct_vacant {l : LinkId} {corr : Byte} {t : TerminalNo} {a : Place × Nat} {s : State}
    (h : (s.term t).state = .vacant) :
    enrolAct l corr t a s =
      if s.defined a.1.route then
        if (s.family a.1.family).now.state = .empty then s.answer l corr .keyUnavailable
        else (s.setTerm t (a.1.enrolled a.2)).answer l corr .done
      else s.answer l corr .routeUndefined := by
  simp [enrolAct, h]

/-! ### Quiet entries and the release test at RETIRE (R8, R10, R11) -/

/-- The model's test for a quiet entry says what `Quiet` says (R8 check 2). -/
theorem quiet_iff (s : State) (t : TerminalNo) : quiet s.engine t (s.term t) = true ↔ Quiet s t := by
  simp [quiet, Quiet, HistoryEntry.outstanding, and_assoc]

/-- An entry that RETIRE makes CLOSING is released at once exactly when it is quiet (R10, R11). -/
theorem release_retired (engine : Engine) (t : TerminalNo) (e : Terminal) :
    release engine t { e with state := .closing } =
      if quiet engine t e then Terminal.vacant else { e with state := .closing } := by
  simp [release, releasable, quiet]

@[simp] theorem releaseTest_setTerm (s : State) (t : TerminalNo) (e : Terminal) :
    (s.setTerm t e).releaseTest t = s.setTerm t (release s.engine t e) := by
  simp [State.releaseTest, State.setTerm, State.term]

/-- RETIRE of an ACTIVE or HELD entry: VACANT where it is quiet, CLOSING otherwise, with the state reached in the answer
(R10). -/
theorem retireEnrolled_eq (l : LinkId) (corr : Byte) (t : TerminalNo) (s : State) :
    retireEnrolled l corr t s =
      if quiet s.engine t (s.term t) then
        (s.setTerm t Terminal.vacant).answer l corr .done (.terminalState .vacant)
      else (s.setTerm t { s.term t with state := .closing }).answer l corr .done (.terminalState .closing) := by
  unfold retireEnrolled
  simp only [releaseTest_setTerm, State.term_setTerm, release_retired]
  split <;> rfl

/-! ### Commands with a terminal number alone, and SET FLOOR (R3, R5, R6, R9, R10) -/

/-- HOLD TERMINAL, RELEASE TERMINAL and RETIRE of a terminal number above 63 (R3). -/
theorem terminalNumber_refused {l : LinkId} {corr b : Byte} {s : State} (h : s.Hears l 1) (hl : isPartner l = true)
    (hp : s.status.part = .running) (hb : 64 ≤ b.toNat) :
    exec (.holdTerminal l corr [b]) s = .next (s.answer l corr .terminalRange) ∧
    exec (.releaseTerminal l corr [b]) s = .next (s.answer l corr .terminalRange) ∧
    exec (.retire l corr [b]) s = .next (s.answer l corr .terminalRange) :=
  ⟨congrArg _ (terminalCommand_range h hl hp hb), congrArg _ (terminalCommand_range h hl hp hb),
    congrArg _ (terminalCommand_range h hl hp hb)⟩

section

variable {l : LinkId} {corr b : Byte} {t : TerminalNo} {s : State}

theorem exec_holdTerminal (h : s.Hears l 1) (hl : isPartner l = true) (hp : s.status.part = .running)
    (hb : b.toNat = t.val) : exec (.holdTerminal l corr [b]) s = .next (holdTerminalAct l corr t s) :=
  congrArg _ (terminalCommand_taken h hl hp hb)

theorem exec_releaseTerminal (h : s.Hears l 1) (hl : isPartner l = true) (hp : s.status.part = .running)
    (hb : b.toNat = t.val) : exec (.releaseTerminal l corr [b]) s = .next (releaseTerminalAct l corr t s) :=
  congrArg _ (terminalCommand_taken h hl hp hb)

theorem exec_retire (h : s.Hears l 1) (hl : isPartner l = true) (hp : s.status.part = .running)
    (hb : b.toNat = t.val) : exec (.retire l corr [b]) s = .next (retireAct l corr t s) :=
  congrArg _ (terminalCommand_taken h hl hp hb)

theorem exec_setFloor {floor : List Byte} {v : Nat} (h : s.Hears l 7) (hl : isPartner l = true)
    (hp : s.status.part = .running) (hb : b.toNat = t.val) (hf : floor.length = 6) (hv : packedOf floor = some v) :
    exec (.setFloor l corr (b :: floor)) s = .next (setFloorAct l corr t v s) := by
  rw [exec_setFloor_heard h hl hf, hv, onTerminal_taken hp hb]

/-- RELEASE TERMINAL of an entry that may trade: ACTIVE, or HELD on a defined route (R6). -/
theorem releaseTerminalAct_taken
    (he : (s.term t).state = .active ∨ ((s.term t).state = .held ∧ s.defined (s.term t).route = true)) :
    releaseTerminalAct l corr t s = (s.setTerm t { s.term t with state := .active }).answer l corr .done := by
  have henrolled : (s.term t).state = .active ∨ (s.term t).state = .held := he.imp_right And.left
  unfold releaseTerminalAct
  rw [onEnrolled_taken henrolled, releaseTerminalEnrolled, if_neg]
  rintro ⟨hheld, hundefined⟩
  rcases he with ha | ⟨-, hd⟩
  · simp [ha] at hheld
  · simp [hd] at hundefined

theorem releaseTerminalAct_undefined (he : (s.term t).state = .held) (hd : s.defined (s.term t).route = false) :
    releaseTerminalAct l corr t s = s.answer l corr .routeUndefined := by
  unfold releaseTerminalAct
  rw [onEnrolled_taken (Or.inr he), releaseTerminalEnrolled, if_pos ⟨he, hd⟩]

end

/-! ### The statements -/

/-- Settles O23, check by check in the order of R3 and R4. -/
theorem enrolMakesActive : Obligations.EnrolMakesActive := by
  refine ⟨fun l corr bt bl br bf bd floor s h hl hp hlen => ?_,
    fun l corr bt bl br bf bd floor t i r f v s h hl hp hlen hbt hbl hbr hbf hbd hv => ?_⟩
  · dsimp only
    rw [exec_enrol_heard h hl hlen]
    refine ⟨fun hb => by rw [onTerminal_range hp hb], fun hb hout => ?_⟩
    have hnone : enrolFields ⟨bt, bl, br, bf, bd⟩ floor = none := by
      rcases hout with h1 | h1 | h1 | h1 | h1
      · exact enrolFields_eq_none (Or.inl (place_eq_none (Or.inl h1)))
      · exact enrolFields_eq_none (Or.inl (place_eq_none (Or.inr (Or.inl h1))))
      · exact enrolFields_eq_none (Or.inl (place_eq_none (Or.inr (Or.inr (Or.inl h1)))))
      · exact enrolFields_eq_none (Or.inl (place_eq_none (Or.inr (Or.inr (Or.inr h1)))))
      · exact enrolFields_eq_none (Or.inr (packedOf_eq_none h1))
    rw [hnone, onTerminal_fields hp hb]
  · dsimp only
    rw [exec_enrol_heard h hl hlen, enrolFields_of_range (place_of_range hbl hbr hbf hbd) hv, onTerminal_taken hp hbt]
    refine ⟨fun hst => by rw [enrolAct_busy hst], fun hst => by rw [enrolAct_closing hst], fun hst => ?_⟩
    rw [enrolAct_vacant hst]
    refine ⟨fun hd => by simp [hd], fun hd => ⟨fun hk => by simp [hd, hk], fun hk => ?_⟩⟩
    simp [hd, hk, Place.enrolled]

/-- Settles O24: each command through the checks of R3, then by the state of the entry. -/
theorem terminalEdits : Obligations.TerminalEdits := by
  refine ⟨fun l corr b floor s hl hp hlen => ⟨fun h hb => terminalNumber_refused h hl hp hb, fun h => ?_⟩,
    fun l corr b floor v t s hl hp hb hlen hv => ⟨fun h => ?_, fun h => ?_⟩⟩
  · rw [exec_setFloor_heard h hl hlen]
    refine ⟨fun hb => by rw [onTerminal_range hp hb], fun hb hd => ?_⟩
    rw [packedOf_eq_none hd, onTerminal_fields hp hb]
  · rw [exec_holdTerminal h hl hp hb, exec_releaseTerminal h hl hp hb, exec_retire h hl hp hb]
    exact ⟨fun he => congrArg _ (onEnrolled_taken he), fun he => congrArg _ (releaseTerminalAct_taken he),
      fun he hd => congrArg _ (releaseTerminalAct_undefined he hd),
      fun he => ⟨congrArg _ (onEnrolled_vacant he), congrArg _ (onEnrolled_vacant he), congrArg _ (onEnrolled_vacant he)⟩,
      fun he => ⟨congrArg _ (onEnrolled_closing he), congrArg _ (onEnrolled_closing he),
        congrArg _ (onEnrolled_closing he)⟩⟩
  · rw [exec_setFloor h hl hp hb hlen hv]
    exact ⟨fun he => congrArg _ (onEnrolled_taken he), fun he => congrArg _ (onEnrolled_vacant he),
      fun he => congrArg _ (onEnrolled_closing he)⟩

/-- Settles O25: MOVE check by check in the order of R3 and R8, RETIRE by whether the entry is quiet (R10). -/
theorem moveAndRetire : Obligations.MoveAndRetire := by
  refine ⟨fun l corr bt bl br bf bd s h hl hp => ?_,
    fun l corr bt bl br bf bd t i r f s h hl hp hbt hbl hbr hbf hbd => ?_,
    fun l corr b t s h hl hp hb he => ?_⟩
  · rw [exec_move_heard h hl]
    refine ⟨fun hb => by rw [onTerminal_range hp hb], fun hb hout => ?_⟩
    rw [place_eq_none hout, onTerminal_fields hp hb]
  · dsimp only
    rw [exec_move_heard h hl, place_of_range hbl hbr hbf hbd, onTerminal_taken hp hbt]
    unfold moveAct
    refine ⟨fun he => by rw [onEnrolled_vacant he], fun he => by rw [onEnrolled_closing he], fun he => ?_⟩
    rw [onEnrolled_taken he, moveEnrolled, ← quiet_iff]
    refine ⟨fun hq => by rw [if_neg hq], fun hq => ?_⟩
    rw [if_pos hq]
    refine ⟨fun hd => by simp [hd], fun hd => ⟨fun hk => by simp [hd, hk], fun hk => ?_⟩⟩
    simp [hd, hk, Terminal.movedTo]
  · rw [exec_retire h hl hp hb]
    unfold retireAct
    rw [onEnrolled_taken he, retireEnrolled_eq, ← quiet_iff]
    exact ⟨fun hq => by rw [if_pos hq], fun hq => by rw [if_neg hq]⟩

end Sys2Proof.Machine
end

section
/-! The key families (02_key_families.md): every step keeps them in order, and what their commands and completions do. -/

namespace Sys2Proof.Machine

/-! ### One record (R22, R25) -/

/-- A family can serve a wrap, or has spent its last position: ACTIVE, LOW or EXHAUSTED (R22). -/
def FamilyState.Serves (st : FamilyState) : Prop := st = .active ∨ st = .low ∨ st = .exhausted

theorem FamilyRecord.working_eq_false {k : FamilyRecord} :
    k.working = false ↔ k.state ≠ .loading ∧ k.state ≠ .rolling := by
  simp [FamilyRecord.working]

/-- A family with no work in progress is EMPTY, RETIRED or serving (R22). -/
theorem FamilyRecord.serves_of_idle {k : FamilyRecord} (hw : k.working = false) (he : k.state ≠ .empty)
    (hr : k.state ≠ .retired) : k.state.Serves := by
  rw [FamilyRecord.working_eq_false] at hw
  cases hst : k.state <;> simp_all [FamilyState.Serves]

theorem FamilyState.Serves.not_working {k : FamilyRecord} (h : k.state.Serves) : k.working = false := by
  rw [FamilyRecord.working_eq_false]
  rcases h with h | h | h <;> simp [h]

theorem FamilyRecord.empty_ok : FamilyRecord.empty.Ok := by
  constructor <;> simp [FamilyRecord.empty]

/-- A record under work is in order as soon as its values were: nothing is asked of its root and of its counter at the
ceiling until it serves again (R22). -/
theorem FamilyRecord.Ok.atWork {k : FamilyRecord} (h : k.Ok) {st : FamilyState} (hst : st = .loading ∨ st = .rolling) :
    FamilyRecord.Ok { k with state := st } := by
  refine ⟨h.ceiling, h.low, h.counter, ?_, h.generation, h.epoch, ?_, ?_⟩ <;> rcases hst with rfl | rfl <;> simp

/-- A record at the beginning of an epoch is in order: its counter 0 lies below the ceiling and its root is held (R29, R32). -/
theorem FamilyRecord.ok_atStart {k : FamilyRecord} (hst : k.state = startState k.ceiling k.low) (hc : k.counter = 0)
    (hceil : 1 ≤ k.ceiling ∧ k.ceiling ≤ 1048575) (hlow : k.low ≤ k.ceiling) (hgen : k.generation ≤ 65535)
    (hepoch : k.epoch ≤ 65535) (hroot : k.root.isSome) : k.Ok := by
  have hstart : k.state = .low ∨ k.state = .active := by
    rw [hst, startState]
    split <;> simp
  have hne : k.counter ≠ k.ceiling := by omega
  refine ⟨hceil, hlow, by omega, fun _ => ?_, hgen, hepoch, fun _ => hroot, ?_⟩ <;>
    rcases hstart with h | h <;> simp [h, hne]

theorem startState_not_working {k : FamilyRecord} (hst : k.state = startState k.ceiling k.low) : k.working = false := by
  rw [FamilyRecord.working_eq_false, hst, startState]
  split <;> simp

/-- The record a matching load brings (R29). -/
theorem FamilyRecord.Ok.loaded {k : FamilyRecord} (h : k.generation < 65535) {w : LoadWork} (hw : w.Ok) (root : Root) :
    (k.loaded w root).Ok :=
  FamilyRecord.ok_atStart rfl rfl hw.ceiling hw.low h (Nat.zero_le _) rfl

/-- The record a roll brings (R32). -/
theorem FamilyRecord.Ok.rolled {k : FamilyRecord} (h : k.Ok) (hepoch : k.epoch < 65535) (hroot : k.root.isSome) :
    k.rolled.Ok :=
  FamilyRecord.ok_atStart rfl rfl h.ceiling h.low h.generation hepoch (by simpa [FamilyRecord.rolled] using hroot)

/-- A retired record holds no root (R35). -/
theorem FamilyRecord.Ok.retire {k : FamilyRecord} (h : k.Ok) : k.retire.Ok := by
  refine ⟨h.ceiling, h.low, h.counter, ?_, h.generation, h.epoch, ?_, ?_⟩ <;> simp [FamilyRecord.retire]

/-- A reservation takes an ACTIVE or LOW family one position on, to EXHAUSTED exactly at the last (R24, R25). -/
theorem FamilyRecord.Ok.reserve {k : FamilyRecord} (h : k.Ok) (hst : k.state = .active ∨ k.state = .low) :
    k.reserve.Ok := by
  have hserves : k.state.Serves := hst.imp_right Or.inl
  have hbelow : k.counter < k.ceiling := by
    refine lt_of_le_of_ne h.counter fun heq => ?_
    have hex := (h.exhausted hserves).mpr heq
    rcases hst with hs | hs <;> simp [hs] at hex
  have hroot := h.held hserves
  have hstate : k.reserve.state = .exhausted ∧ k.counter + 1 = k.ceiling ∨
      (k.reserve.state = .active ∨ k.reserve.state = .low) ∧ k.counter + 1 ≠ k.ceiling := by
    by_cases hu : k.counter + 1 = k.ceiling
    · simp [FamilyRecord.reserve, FamilyRecord.usesLast, hu]
    · refine Or.inr ⟨?_, hu⟩
      have hlast : k.usesLast = false := by simp [FamilyRecord.usesLast, hu]
      simp only [FamilyRecord.reserve, hlast, Bool.false_eq_true, if_false]
      split
      · exact Or.inr rfl
      · exact hst
  refine ⟨h.ceiling, h.low, hbelow, fun _ => ?_, h.generation, h.epoch, fun _ => hroot, fun hgone => ?_⟩
  · change k.reserve.state = .exhausted ↔ k.counter + 1 = k.ceiling
    rcases hstate with ⟨hs, hu⟩ | ⟨hs | hs, hu⟩ <;> simp [hs, hu]
  · rcases hstate with ⟨hs, -⟩ | ⟨hs | hs, -⟩ <;> simp [hs] at hgone

theorem FamilyRecord.reserve_working {k : FamilyRecord} (hst : k.state = .active ∨ k.state = .low) :
    k.reserve.working = false := by
  rw [FamilyRecord.working_eq_false]
  simp only [FamilyRecord.reserve]
  split
  · simp
  · split
    · simp
    · rcases hst with h | h <;> simp [h]

/-! ### One family (R22, R28, R31) -/

/-- A family without work in progress has no operation: an operation names its state LOADING or ROLLING (R22). -/
theorem Family.Ok.op_none {k : Family} (h : k.Ok) (hw : k.now.working = false) : k.op = .none := by
  rw [FamilyRecord.working_eq_false] at hw
  obtain ⟨hload, hroll⟩ := hw
  cases hop : k.op with
  | none => rfl
  | load => exact absurd (h.load hop).1 hload
  | gatewayRoll => exact absurd (h.roll (Or.inl hop)).1 hroll
  | cutoverRoll => exact absurd (h.roll (Or.inr hop)).1 hroll

/-- A family with no operation and no prior contents is in order when its record is, and is not LOADING or ROLLING. -/
theorem Family.ok_of_settled {k : Family} (hop : k.op = .none) (hp : k.prior = none) (h : k.now.Ok)
    (hw : k.now.working = false) : k.Ok := by
  refine ⟨h, fun _ => ⟨hp, hw⟩, ?_, ?_, ?_⟩ <;> simp [hop]

theorem Family.settled_ok {k : FamilyRecord} (h : k.Ok) (hw : k.working = false) : (Family.settled k).Ok :=
  Family.ok_of_settled rfl rfl h hw

theorem Family.empty_ok : Family.empty.Ok := Family.settled_ok FamilyRecord.empty_ok rfl

/-- The record of a family with no work in progress is replaced by another such record. -/
theorem Family.Ok.setNow {k : Family} (h : k.Ok) (hw : k.now.working = false) {k' : FamilyRecord} (h' : k'.Ok)
    (hw' : k'.working = false) : Family.Ok { k with now := k' } :=
  Family.ok_of_settled (h.op_none hw) (h.none (h.op_none hw)).1 h' hw'

/-- A load begins on a family with no work in progress, its generation below the last (R28). -/
theorem Family.Ok.begin_load {k : Family} (h : k.Ok) (hw : k.now.working = false) (hg : k.now.generation < 65535) :
    (k.begin .load .loading).Ok := by
  refine ⟨h.now.atWork (Or.inl rfl), ?_, fun _ => ⟨rfl, hg⟩, ?_, fun _ => ⟨k.now, rfl, h.now, hw⟩⟩ <;> simp [Family.begin]

/-- A roll begins on a serving family, its epoch below the last (R31, R33). -/
theorem Family.Ok.begin_roll {k : Family} (h : k.Ok) (hs : k.now.state.Serves) (he : k.now.epoch < 65535)
    {op : FamilyOp} (hop : op = .gatewayRoll ∨ op = .cutoverRoll) : (k.begin op .rolling).Ok := by
  refine ⟨h.now.atWork (Or.inr rfl), ?_, ?_, fun _ => ⟨rfl, he, h.now.held hs⟩,
    fun _ => ⟨k.now, rfl, h.now, hs.not_working⟩⟩ <;> rcases hop with rfl | rfl <;> simp [Family.begin]

/-- A family that takes back its prior contents is in order (R29, R37). -/
theorem Family.Ok.undone {k : Family} (h : k.Ok) (hop : k.op ≠ .none) : k.undone.Ok := by
  obtain ⟨p, hp, hok, hw⟩ := h.prior hop
  simp only [Family.undone, hp, Option.getD_some]
  exact Family.settled_ok hok hw

/-! ### The unit -/

/-- The invariant reads the Key Family Unit alone. -/
theorem State.KeysOk.kept {s t : State} (h : s.KeysOk) (hk : t.keys = s.keys) : t.KeysOk := by
  refine ⟨fun f => ?_, fun f w hw => h.loads f w (by rwa [← hk])⟩
  have hf : t.family f = s.family f := by simp [State.family, hk]
  rw [hf]
  exact h.families f

theorem setFamily_keysOk {s : State} {f : FamilyNo} {k : Family} (h : s.KeysOk) (hk : k.Ok) : (s.setFamily f k).KeysOk := by
  refine ⟨fun g => ?_, h.loads⟩
  by_cases hfg : f = g
  · subst hfg
    rw [State.family_setFamily]
    exact hk
  · rw [State.family_setFamily_ne s k hfg]
    exact h.families g

theorem setLoad_keysOk {s : State} {f : FamilyNo} {o : Option LoadWork} (h : s.KeysOk) (ho : ∀ w, o = some w → w.Ok) :
    (s.setLoad f o).KeysOk := by
  refine ⟨h.families, fun g w hw => ?_⟩
  rw [State.setLoad_keys, Vec.get_put] at hw
  split at hw
  · exact ho w hw
  · exact h.loads g w hw

/-- Loss of supply drops the loads in hand and keeps the families (R171). -/
theorem noLoads_keysOk {s t : State} (h : s.KeysOk) (hf : t.keys.families = s.keys.families)
    (hl : t.keys.loads = Vector.replicate 8 none) : t.KeysOk := by
  refine ⟨fun f => ?_, fun f w hw => by simp [hl] at hw⟩
  have he : t.family f = s.family f := by simp [State.family, hf]
  rw [he]
  exact h.families f

/-- Every family empty and no load in hand is in order (R38). -/
theorem emptyKeys_keysOk {s : State} (h : s.keys = KeyUnit.empty) : s.KeysOk := by
  refine ⟨fun f => ?_, fun f w hw => by simp [h, KeyUnit.empty] at hw⟩
  have he : s.family f = Family.empty := by simp [State.family, h, KeyUnit.empty]
  rw [he]
  exact Family.empty_ok

/-! ### Work on a family begun, ended and undone (R28 to R37) -/

theorem familyBusy_eq_false {s : State} {f : FamilyNo} :
    s.familyBusy f = false ↔ (s.family f).now.working = false ∧ s.engine.servesFamily f = false := by
  simp [State.familyBusy]

/-- What KEY LOAD's field check lets through is in range (R28 check 2). -/
theorem load_ok {b : LoadBytes} {f : FamilyNo} {w : LoadWork} (h : b.load = some (f, w)) : w.Ok := by
  unfold LoadBytes.load at h
  split at h
  · split at h
    · next hrange =>
      obtain ⟨hone, hmax, hlow⟩ := hrange
      cases h
      exact ⟨⟨hone, hmax⟩, hlow⟩
    · cases h
  · cases h

theorem keyLoadFamily_keysOk {s : State} (hs : s.KeysOk) (l : LinkId) (corr : Byte) (f : FamilyNo) {w : LoadWork}
    (hw : w.Ok) : (keyLoadFamily l corr f w s).KeysOk := by
  unfold keyLoadFamily
  split
  · exact hs.kept rfl
  · next hbusy =>
    have hfree := (familyBusy_eq_false.mp (Bool.not_eq_true _ ▸ hbusy)).1
    split
    · next hgen =>
      have hbegun : (s.setFamily f ((s.family f).begin .load .loading)).KeysOk :=
        setFamily_keysOk hs ((hs.families f).begin_load hfree hgen)
      have hloaded : ((s.setFamily f ((s.family f).begin .load .loading)).setLoad f (some w)).KeysOk :=
        setLoad_keysOk hbegun fun _ he => Option.some.inj he ▸ hw
      exact hloaded.kept rfl
    · exact hs.kept rfl

theorem keyLoadAct_keysOk {s : State} (hs : s.KeysOk) (l : LinkId) (corr : Byte) (b : LoadBytes) :
    (keyLoadAct l corr b s).KeysOk := by
  unfold keyLoadAct
  split
  · exact hs.kept rfl
  · split
    · exact hs.kept rfl
    · next f w hload => exact keyLoadFamily_keysOk hs l corr f (load_ok hload)

theorem rollFamilyOn_keysOk {s : State} (hs : s.KeysOk) (l : LinkId) (corr : Byte) (f : FamilyNo) :
    (rollFamilyOn l corr f s).KeysOk := by
  unfold rollFamilyOn
  dsimp only
  split
  · exact hs.kept rfl
  · next hgone =>
    obtain ⟨he, hr⟩ := not_or.mp hgone
    split
    · exact hs.kept rfl
    · next hbusy =>
      have hfree := (familyBusy_eq_false.mp (Bool.not_eq_true _ ▸ hbusy)).1
      split
      · next hepoch =>
        have hbegun : (s.setFamily f ((s.family f).begin .gatewayRoll .rolling)).KeysOk :=
          setFamily_keysOk hs ((hs.families f).begin_roll (FamilyRecord.serves_of_idle hfree he hr) hepoch (Or.inl rfl))
        exact hbegun.kept rfl
      · exact hs.kept rfl

theorem rollFamilyAct_keysOk {s : State} (hs : s.KeysOk) (l : LinkId) (corr b : Byte) :
    (rollFamilyAct l corr b s).KeysOk := by
  unfold rollFamilyAct
  split
  · split
    · exact hs.kept rfl
    · split
      · exact rollFamilyOn_keysOk hs l corr _
      · exact hs.kept rfl
  · exact hs.kept rfl

theorem retireFamilyOn_keysOk {s : State} (hs : s.KeysOk) (l : LinkId) (corr : Byte) (f : FamilyNo) :
    (retireFamilyOn l corr f s).KeysOk := by
  unfold retireFamilyOn
  dsimp only
  split
  · exact hs.kept rfl
  · split
    · exact hs.kept rfl
    · next hbusy =>
      have hfree := (familyBusy_eq_false.mp (Bool.not_eq_true _ ▸ hbusy)).1
      split
      · exact hs.kept rfl
      · have hretired : (s.setFamily f { s.family f with now := (s.family f).now.retire }).KeysOk :=
          setFamily_keysOk hs ((hs.families f).setNow hfree (hs.families f).now.retire rfl)
        exact hretired.kept rfl

theorem retireFamilyAct_keysOk {s : State} (hs : s.KeysOk) (l : LinkId) (corr b : Byte) :
    (retireFamilyAct l corr b s).KeysOk := by
  unfold retireFamilyAct
  split
  · exact hs.kept rfl
  · split
    · exact hs.kept rfl
    · exact retireFamilyOn_keysOk hs l corr _

/-- The end of a load in progress, whichever way its check value falls (R29). -/
theorem finishLoad_keysOk {s : State} (hs : s.KeysOk) {f : FamilyNo} (hop : (s.family f).op = .load) {w : LoadWork}
    (hw : w.Ok) (root : Root) (check : BitVec 24) : (s.finishLoad f w root check).KeysOk := by
  have hbase : (s.setLoad f none).KeysOk := setLoad_keysOk hs fun _ he => absurd he (by simp)
  unfold State.finishLoad
  dsimp only
  split
  · have hgen := ((hs.families f).load hop).2
    have hdone := setFamily_keysOk (f := f) hbase
      (Family.settled_ok (FamilyRecord.Ok.loaded hgen hw root) (startState_not_working rfl))
    exact hdone.kept rfl
  · have hback := setFamily_keysOk (f := f) hbase ((hs.families f).undone (by simp [hop]))
    exact hback.kept rfl

/-- A roll takes effect on a record that may be rolled: in progress, or started and completed at a restore (R32, R147). -/
theorem finishRoll_keysOk {s : State} (hs : s.KeysOk) {f : FamilyNo} (he : (s.family f).now.epoch < 65535)
    (hroot : (s.family f).now.root.isSome) : (s.finishRoll f).KeysOk := by
  have hdone := setFamily_keysOk (f := f) hs
    (Family.settled_ok ((hs.families f).now.rolled he hroot) (startState_not_working rfl))
  exact hdone.kept rfl

theorem finishRoll_keysOk_of_op {s : State} (hs : s.KeysOk) {f : FamilyNo}
    (hop : (s.family f).op = .gatewayRoll ∨ (s.family f).op = .cutoverRoll) : (s.finishRoll f).KeysOk := by
  obtain ⟨-, hepoch, hroot⟩ := (hs.families f).roll hop
  exact finishRoll_keysOk hs hepoch hroot

/-- What the cut-over asks of a record before it rolls it (R33). -/
theorem canRoll_iff {k : FamilyRecord} : k.canRoll = true ↔ k.state.Serves ∧ k.epoch < 65535 := by
  simp [FamilyRecord.canRoll, FamilyState.Serves, or_assoc]

theorem rollTurn_keysOk {s : State} (hs : s.KeysOk) (f : FamilyNo) : (s.rollTurn f).KeysOk := by
  unfold State.rollTurn
  dsimp only
  split
  · split
    · next hcan =>
      obtain ⟨hserves, hepoch⟩ := canRoll_iff.mp hcan
      exact setFamily_keysOk hs ((hs.families f).begin_roll hserves hepoch (Or.inr rfl))
    · exact hs.kept rfl
  · exact hs.kept rfl

theorem undoFamily_keysOk {s : State} (hs : s.KeysOk) (f : FamilyNo) : (s.undoFamily f).KeysOk := by
  unfold State.undoFamily
  dsimp only
  split
  · exact hs
  · next hop =>
    have hback := setFamily_keysOk (f := f) hs ((hs.families f).undone (by simp [hop]))
    exact hback.kept rfl
  · next hnone _ => exact setFamily_keysOk hs ((hs.families f).undone hnone)

theorem rollWhole_keysOk {s : State} (hs : s.KeysOk) (f : FamilyNo) : (s.rollWhole f).KeysOk := by
  unfold State.rollWhole
  dsimp only
  split
  · split
    · next hcan =>
      obtain ⟨hserves, hepoch⟩ := canRoll_iff.mp hcan
      exact finishRoll_keysOk hs hepoch ((hs.families f).now.held hserves)
    · exact hs.kept rfl
  · exact hs

theorem execLoadCompletion_keysOk {s : State} (hs : s.KeysOk) (f : FamilyNo) :
    ∃ t, execLoadCompletion f s = .next t ∧ t.KeysOk := by
  refine ⟨_, rfl, ?_⟩
  split
  · next hon =>
    simp only [Bool.and_eq_true, beq_iff_eq] at hon
    obtain ⟨-, hop⟩ := hon
    split
    · next w hw => exact finishLoad_keysOk hs hop (hs.loads f w hw) _ _
    · exact hs
  · exact hs

theorem execRollCompletion_keysOk {s : State} (hs : s.KeysOk) (f : FamilyNo) :
    ∃ t, execRollCompletion f s = .next t ∧ t.KeysOk := by
  refine ⟨_, rfl, ?_⟩
  split
  · split
    · next hop => exact (finishRoll_keysOk_of_op hs (Or.inl hop)).kept rfl
    · next hop => exact (finishRoll_keysOk_of_op hs (Or.inr hop)).kept rfl
    · exact hs
  · exact hs

theorem execCutoverFamilyRoll_keysOk {s : State} (hs : s.KeysOk) :
    ∃ t, execCutoverFamilyRoll s = .next t ∧ t.KeysOk := by
  refine ⟨_, rfl, ?_⟩
  split
  · split
    · split
      · exact hs
      · exact rollTurn_keysOk hs _
    · exact hs
  · exact hs

/-! ### A grant reserves a counter only of a serving family (R83, R85) -/

theorem serving_of_familyRefusal {st : FamilyState} (h : familyRefusal st = none) : st = .active ∨ st = .low := by
  cases st <;> simp_all [familyRefusal]

/-- Checks 5 to 8 let a wrap through only on a family that is ACTIVE or LOW (R83). -/
theorem laterChecks_wrap {s : State} {e : Terminal} {kind : WrapKind} {amount : Nat} {ref : Option Reference} {p : WrapPlan}
    (h : s.laterChecks e kind amount ref = .wrap p) :
    (s.family p.family).now.state = .active ∨ (s.family p.family).now.state = .low := by
  unfold State.laterChecks at h
  split at h
  · cases h
  · split at h
    · cases h
    · split at h
      · cases h
      · split at h
        · cases h
        · split at h
          · cases h
          · next hfam =>
            cases h
            exact serving_of_familyRefusal hfam

theorem amountChecks_wrap {s : State} {e : Terminal} {kind : WrapKind} {count : Nat} {nibbles : List Nat} {p : WrapPlan}
    (h : s.amountChecks e kind count nibbles = .wrap p) : ∃ amount ref, s.laterChecks e kind amount ref = .wrap p := by
  unfold State.amountChecks at h
  split at h
  · split at h <;> cases h
  · split at h
    · cases h
    · exact ⟨_, _, h⟩

/-- A wrap that passes the grant checks is on a family that is ACTIVE or LOW (R76, R83). -/
theorem grantChecks_wrap {s : State} {q : Request} {p : WrapPlan} (h : s.grantChecks q = .wrap p) :
    (s.family p.family).now.state = .active ∨ (s.family p.family).now.state = .low := by
  have hlater : ∃ e kind amount ref, s.laterChecks e kind amount ref = .wrap p := by
    unfold State.grantChecks at h
    dsimp only at h
    split at h
    · cases h
    · cases h
    · cases h
    · split at h
      · cases h
      · unfold State.itemChecks at h
        split at h
        · exact ⟨_, _, amountChecks_wrap h⟩
        · exact ⟨_, _, amountChecks_wrap h⟩
        · split at h
          · cases h
          · split at h
            · cases h
            · exact ⟨_, _, _, _, h⟩
  obtain ⟨_, _, _, _, hl⟩ := hlater
  exact laterChecks_wrap hl

theorem reserve_keysOk {s : State} (hs : s.KeysOk) (q : Request) {p : WrapPlan}
    (hst : (s.family p.family).now.state = .active ∨ (s.family p.family).now.state = .low) : (s.reserve q p).KeysOk := by
  have hserves : (s.family p.family).now.state.Serves := hst.imp_right Or.inl
  have hreserved := setFamily_keysOk (f := p.family) hs ((hs.families p.family).setNow hserves.not_working
    ((hs.families p.family).now.reserve hst) (FamilyRecord.reserve_working hst))
  exact hreserved.kept rfl

theorem voidRecord_keys (s : State) (r : RouteNo) (till : Nat) (h : HistoryEntry) :
    (s.voidRecord r till h).keys = s.keys := by
  unfold State.voidRecord
  split
  · split <;> rfl
  · rfl

theorem withdraw_keys (s : State) (q : Request) (h : HistoryEntry) : (s.withdraw q h).keys = s.keys := by
  simp [State.withdraw, voidRecord_keys]

theorem settleGrant_keysOk {s : State} (hs : s.KeysOk) (q : Request) : (s.settleGrant q (s.grantChecks q)).KeysOk := by
  cases hv : s.grantChecks q with
  | refused code => exact hs.kept rfl
  | duplicate h => exact hs.kept rfl
  | withdraw h => exact hs.kept (withdraw_keys s q h)
  | wrap p => exact reserve_keysOk hs q (grantChecks_wrap hv)

theorem execGrant_keysOk {s : State} (hs : s.KeysOk) : ∃ t, execGrant s = .next t ∧ t.KeysOk := by
  refine ⟨_, rfl, ?_⟩
  split
  · split
    · exact hs
    · next i _ =>
      split
      · exact hs
      · next q _ _ =>
        have hgranted : State.KeysOk { s with intake := s.intake.granted i } := hs.kept rfl
        exact settleGrant_keysOk hgranted q
  · exact hs

/-! ### What leaves the Key Family Unit as it is: closes, offers, acknowledgements, transmitters -/

@[simp] theorem requestClose_keys (s : State) (r : RouteNo) (why : CloseReason) : (s.requestClose r why).1.keys = s.keys := by
  rcases requestClose_cases s r why with ⟨p, -, e⟩ | ⟨-, -, e⟩ | ⟨-, -, -, e⟩ | ⟨-, -, -, e⟩ <;> rw [e] <;> rfl

@[simp] theorem askClose_keys (s : State) (r : RouteNo) : (s.askClose r).keys = s.keys := by
  unfold State.askClose
  split
  · exact requestClose_keys s r _
  · rfl

@[simp] theorem settleDeferred_keys (s : State) (r : RouteNo) : (s.settleDeferred r).keys = s.keys := by
  rcases settleDeferred_cases s r with e | ⟨p, -, -, e⟩ | ⟨p, -, -, -, e⟩ <;> rw [e] <;> rfl

@[simp] theorem dueClose_keys (s : State) (r : RouteNo) (last : Bool) : (s.dueClose r last).keys = s.keys := by
  rcases dueClose_cases s r last with e | ⟨why, -, e⟩ | e | e <;> rw [e] <;> rfl

@[simp] theorem takeDown_keys (s : State) (r : RouteNo) (why : DownReason) (cause : EndCause) :
    (s.takeDown r why cause).keys = s.keys := by
  cases hst : (s.route r).stream with
  | none => rw [takeDown_closed why cause hst]; rfl
  | some st => rw [takeDown_open why cause hst]; rfl

theorem offer_keys {s s' : State} {r : RouteNo} {c : RouteConfig} {corr : Byte} {m : Message}
    (ho : s.offer r c corr = some (s', m)) : s'.keys = s.keys := by
  rcases offer_cases ho with ⟨slot, rec, e, -, rfl, -⟩ | ⟨cl, e, -, rfl, -⟩ <;> rfl

@[simp] theorem offerRun_keys (r : RouteNo) (c : RouteConfig) (corr : Byte) (n : Nat) (s : State) :
    (State.offerRun r c corr n s).state.keys = s.keys :=
  offerRun_keeps (fun t => t.keys = s.keys) (fun _ _ _ h _ ho => (offer_keys ho).trans h) n s rfl

@[simp] theorem acknowledge_keys (s : State) (r : RouteNo) (c : RouteConfig) (id : Identity) :
    (s.acknowledge r c id).keys = s.keys := by
  unfold State.acknowledge
  rcases ackAtQueues_cases (s.setRoute r ((s.route r).unlisting c id)) r id with
    e | ⟨n, rec, -, -, -, e⟩ | ⟨cl, -, -, e⟩ <;> rw [e] <;> simp

@[simp] theorem acknowledgeAll_keys (s : State) (r : RouteNo) (c : RouteConfig) (ids : List Identity) :
    (s.acknowledgeAll r c ids).keys = s.keys :=
  foldl_keeps (fun t => t.keys = s.keys) _ (fun t id h => (acknowledge_keys t r c id).trans h) ids s rfl

@[simp] theorem endByCount_keys (s : State) (r : RouteNo) (st : OpenStream) : (s.endByCount r st).keys = s.keys := by
  unfold State.endByCount
  split <;> rfl

@[simp] theorem serveStream_keys (s : State) (l : LinkId) (r : RouteNo) : (s.serveStream l r).keys = s.keys := by
  unfold State.serveStream
  split
  · split
    · next ho => simp [offer_keys ho]
    · rfl
  · rfl

@[simp] theorem nextMessage_keys (s : State) (l : LinkId) : (s.nextMessage l).keys = s.keys := by
  unfold State.nextMessage
  split
  · rfl
  · split
    · exact serveStream_keys s l _
    · rfl

@[simp] theorem resetLink_keys (s : State) (l : LinkId) (rx : Receiver) : (s.resetLink l rx).keys = s.keys := by
  cases l <;> rfl

/-! ### What leaves the Key Family Unit as it is: requests -/

section

variable {l : LinkId} {corr b : Byte} {s : State}

/-- What the part does with a request before its own act leaves the families as they are; so the request keeps them in
order where its act does. -/
theorem request_keysOk {α : Type} {kind : Byte} {ring : Nat} {parse : List Byte → Option α} {spoil : State → State}
    {p : List Byte} {act : α → State → State} (hs : s.KeysOk) (hspoil : ∀ b, (spoil b).keys = b.keys)
    (hact : ∀ a b, b.KeysOk → (act a b).KeysOk) : (request kind ring parse spoil l corr p act s).KeysOk :=
  request_keeps State.KeysOk hs (fun h => h.kept rfl) (fun h => h.kept rfl) (fun _ h _ => h.kept rfl)
    (fun _ _ h _ => h.kept rfl) (fun b h _ => h.kept (hspoil b)) (fun a b _ _ h _ _ _ => hact a b h)

theorem request_keys {α : Type} {kind : Byte} {ring : Nat} {parse : List Byte → Option α} {spoil : State → State}
    {p : List Byte} {act : α → State → State} (hspoil : ∀ b, (spoil b).keys = b.keys)
    (hact : ∀ a b, (act a b).keys = b.keys) : (request kind ring parse spoil l corr p act s).keys = s.keys :=
  request_keeps (fun t => t.keys = s.keys) rfl id id (fun _ h _ => h) (fun _ _ h _ => h)
    (fun b h _ => (hspoil b).trans h) (fun a b _ _ h _ _ _ => (hact a b).trans h)

theorem laneRequest_keys {kind : Byte} {p : List Byte} {act : LaneNo → State → State}
    (hact : ∀ i b, (act i b).keys = b.keys) : (laneRequest kind l corr p act s).keys = s.keys :=
  laneRequest_keeps (fun t => t.keys = s.keys) rfl id id (fun _ h _ => h) (fun _ _ h _ => h)
    (fun i b _ h _ _ _ => (hact i b).trans h)

/-- A command on a route leaves the families as they are where its act does (R116). -/
theorem onRoute_keys {act : RouteNo → RouteConfig → State → State} (hact : ∀ r c, (act r c s).keys = s.keys) :
    (onRoute l corr b act s).keys = s.keys := by
  unfold onRoute
  split
  · split
    · rfl
    · split
      · rfl
      · exact hact _ _
  · rfl

theorem routeCommand_keys {kind : Byte} {p : List Byte} {act : RouteNo → RouteConfig → State → State}
    (hact : ∀ r c b, (act r c b).keys = b.keys) : (routeCommand kind l corr p act s).keys = s.keys :=
  request_keys (fun _ => rfl) fun _ b => onRoute_keys fun r c => hact r c b

/-- A command on a terminal leaves the families as they are where its act does (R3). -/
theorem onTerminal_keys {α : Type} {fields : Option α} {act : TerminalNo → α → State → State}
    (hact : ∀ t a, (act t a s).keys = s.keys) : (onTerminal l corr b fields act s).keys = s.keys := by
  unfold onTerminal
  split
  · split
    · rfl
    · split
      · rfl
      · exact hact _ _
  · rfl

theorem terminalCommand_keys {kind : Byte} {p : List Byte} {act : TerminalNo → State → State}
    (hact : ∀ t b, (act t b).keys = b.keys) : (terminalCommand kind l corr p act s).keys = s.keys :=
  request_keys (fun _ => rfl) fun _ b => onTerminal_keys fun t _ => hact t b

theorem onEnrolled_keys {t : TerminalNo} {act : State → State} (hact : (act s).keys = s.keys) :
    (onEnrolled l corr t act s).keys = s.keys := by
  unfold onEnrolled
  split
  · rfl
  · rfl
  · exact hact
  · exact hact

/-- A frame that arrives leaves the families as they are, whether it is gone or taken. -/
theorem frameArrives_keys (l : LinkId) (body : List Byte) (s : State) :
    (∃ t, frameArrives l body s = .gone t ∧ t.keys = s.keys) ∨ (∃ t, frameArrives l body s = .taken t ∧ t.keys = s.keys) := by
  have hends : ∀ b, EndsFrom s l b → b.keys = s.keys := by
    rintro b (rfl | rfl | rfl) <;> rfl
  rcases frameArrives_cases l body s with ⟨t, he, hb | ⟨b, hb, rfl, -⟩⟩ | ⟨t, he, hb, -⟩
  · exact Or.inl ⟨t, he, hends t hb⟩
  · exact Or.inl ⟨_, he, hends b hb⟩
  · exact Or.inr ⟨t, he, hends t hb⟩

end

/-! ### Acts that leave the Key Family Unit as it is

Each branch of such an act is a refusal, or an update of other blocks. -/

section

variable (l : LinkId) (corr b : Byte) (t : TerminalNo) (r : RouteNo) (c : RouteConfig) (s : State)

theorem wrapRequestAct_keys (kind : WrapKind) (i : LaneNo) (p : List Byte) : (wrapRequestAct kind i corr p s).keys = s.keys := by
  unfold wrapRequestAct
  repeat' split
  all_goals rfl

theorem enrolAct_keys (a : Place × Nat) : (enrolAct l corr t a s).keys = s.keys := by
  unfold enrolAct
  repeat' split
  all_goals rfl

theorem releaseTerminalAct_keys : (releaseTerminalAct l corr t s).keys = s.keys := by
  refine onEnrolled_keys ?_
  unfold releaseTerminalEnrolled
  split <;> rfl

theorem moveAct_keys (p : Place) : (moveAct l corr t p s).keys = s.keys := by
  refine onEnrolled_keys ?_
  unfold moveEnrolled
  repeat' split
  all_goals rfl

theorem terminalQueryAct_keys : (terminalQueryAct l corr b s).keys = s.keys := by
  unfold terminalQueryAct
  split <;> rfl

theorem familyQueryAct_keys : (familyQueryAct l corr b s).keys = s.keys := by
  unfold familyQueryAct
  split <;> rfl

theorem setCeilingAct_keys (digits : List Byte) : (setCeilingAct l corr b digits s).keys = s.keys := by
  unfold setCeilingAct
  repeat' split
  all_goals rfl

theorem laneHoldAct_keys (held : Bool) : (laneHoldAct held l corr b s).keys = s.keys := by
  unfold laneHoldAct
  repeat' split
  all_goals rfl

theorem routeUpAct_keys : (routeUpAct l corr r c s).keys = s.keys := by
  unfold routeUpAct
  dsimp only
  split <;> rfl

theorem routeDownAct_keys : (routeDownAct l corr r c s).keys = s.keys := by
  unfold routeDownAct
  dsimp only
  split
  · exact takeDown_keys s r .command .routeDown
  · rfl

theorem pullOneAct_keys : (pullOneAct l corr r c s).keys = s.keys := by
  unfold pullOneAct
  split
  · split
    · split
      · rfl
      · next s' m ho =>
        have hk : s'.keys = s.keys := offer_keys ho
        exact hk
    · rfl
  · rfl

theorem pullBlockAct_keys (n : Byte) : (pullBlockAct l corr n r c s).keys = s.keys := by
  unfold pullBlockAct
  split
  · exact offerRun_keys r c corr _ s
  · rfl

theorem streamOpenAct_keys (n renew : Byte) : (streamOpenAct l corr n renew r c s).keys = s.keys := by
  unfold streamOpenAct
  repeat' split
  all_goals rfl

theorem ackOneAct_keys (batch sq : Nat) : (ackOneAct l corr batch sq r c s).keys = s.keys := by
  unfold ackOneAct
  split
  · exact acknowledge_keys s r c _
  · rfl

theorem ackOldestAct_keys : (ackOldestAct l corr r c s).keys = s.keys := by
  unfold ackOldestAct
  split
  · rfl
  · exact acknowledge_keys s r c _

theorem routeQueryAct_keys : (routeQueryAct l corr b s).keys = s.keys := by
  unfold routeQueryAct
  repeat' split
  all_goals rfl

theorem setClockAct_keys (time : ClockTime) : (setClockAct l corr time s).keys = s.keys := by
  unfold setClockAct
  repeat' split
  all_goals rfl

theorem setCutoverAct_keys (a : Byte × Byte × Byte) : (setCutoverAct l corr a s).keys = s.keys := by
  unfold setCutoverAct
  repeat' split
  all_goals rfl

theorem closeBatchAct_keys : (closeBatchAct l corr b s).keys = s.keys := by
  unfold closeBatchAct
  split
  · split
    · rfl
    · next r _ =>
      split
      · split
        · exact requestClose_keys s r .manual
        · rfl
      · rfl
  · rfl

theorem setupBeginAct_keys (a : Byte × Byte) : (setupBeginAct l corr a s).keys = s.keys := by
  unfold setupBeginAct
  repeat' split
  all_goals rfl

theorem routeDefineAct_keys (a : DefineBytes) : (routeDefineAct l corr a s).keys = s.keys := by
  unfold routeDefineAct routeDefineStaged
  repeat' split
  all_goals rfl

theorem setupEndAct_keys : (setupEndAct l corr s).keys = s.keys := by
  unfold setupEndAct
  repeat' split
  all_goals rfl

theorem faultReadAct_keys : (faultReadAct l corr s).keys = s.keys := by
  unfold faultReadAct
  dsimp only
  split <;> rfl

end

/-! ### Events that leave the Key Family Unit as it is -/

section

variable (s : State)

theorem execLinkReset_keys (l : LinkId) (corr : Byte) (p : List Byte) :
    ∃ t, execLinkReset l corr p s = .next t ∧ t.keys = s.keys := by
  refine ⟨_, rfl, ?_⟩
  split
  · split
    · rcases frameArrives_keys l (0x0F#8 :: corr :: p) s with ⟨t, he, hk⟩ | ⟨t, he, hk⟩ <;> rw [he] <;> exact hk
    · exact resetLink_keys s l .hunting
  · rfl

theorem execFrameBad_keys (l : LinkId) (chars : List LineChar) :
    ∃ t, execFrameBad l chars s = .next t ∧ t.keys = s.keys := by
  refine ⟨_, rfl, ?_⟩
  repeat' split
  all_goals rfl

theorem execLineBreak_keys (l : LinkId) : ∃ t, execLineBreak l s = .next t ∧ t.keys = s.keys := by
  refine ⟨_, rfl, ?_⟩
  dsimp only
  split
  · exact resetLink_keys _ l .inBreak
  · rfl

theorem execUnknownKind_keys (l : LinkId) (corr kind : Byte) (p : List Byte) :
    ∃ t, execUnknownKind l corr kind p s = .next t ∧ t.keys = s.keys := by
  refine ⟨_, rfl, ?_⟩
  split
  · rfl
  · rcases frameArrives_keys l (kind :: corr :: p) s with ⟨t, he, hk⟩ | ⟨t, he, hk⟩ <;> rw [he] <;> exact hk

theorem execCompletion_keys : ∃ t, execCompletion s = .next t ∧ t.keys = s.keys := by
  refine ⟨_, rfl, ?_⟩
  split
  · split
    · next k w _ => exact (dueClose_keys _ _ _).trans (completeWrap_keys s k w)
    · rfl
  · rfl

theorem execStreamOffer_keys (l : LinkId) : ∃ t, execStreamOffer l s = .next t ∧ t.keys = s.keys := by
  refine ⟨_, rfl, ?_⟩
  split
  · exact nextMessage_keys s l
  · rfl

theorem execTransmitComplete_keys (l : LinkId) : ∃ t, execTransmitComplete l s = .next t ∧ t.keys = s.keys := by
  refine ⟨_, rfl, ?_⟩
  split
  · exact nextMessage_keys _ l
  · rfl

theorem execAckTimerExpiry_keys (r : RouteNo) : ∃ t, execAckTimerExpiry r s = .next t ∧ t.keys = s.keys := by
  refine ⟨_, rfl, ?_⟩
  split
  · exact takeDown_keys s r .timeout .timeout
  · rfl

theorem execTick_keys : ∃ t, execTick s = .next t ∧ t.keys = s.keys := by
  refine ⟨_, rfl, ?_⟩
  dsimp only
  split <;> rfl

theorem execNearWarning_keys : ∃ t, execNearWarning s = .next t ∧ t.keys = s.keys := by
  refine ⟨_, rfl, ?_⟩
  split <;> rfl

theorem execCutoverMatch_keys : ∃ t, execCutoverMatch s = .next t ∧ t.keys = s.keys := by
  refine ⟨_, rfl, ?_⟩
  repeat' split
  all_goals rfl

theorem execCutoverClosingStart_keys : ∃ t, execCutoverClosingStart s = .next t ∧ t.keys = s.keys := by
  refine ⟨_, rfl, ?_⟩
  split <;> rfl

theorem execCutoverRouteClose_keys : ∃ t, execCutoverRouteClose s = .next t ∧ t.keys = s.keys := by
  refine ⟨_, rfl, ?_⟩
  split
  · split
    · exact askClose_keys s _
    · rfl
  · rfl

theorem execDeferredClose_keys (r : RouteNo) : ∃ t, execDeferredClose r s = .next t ∧ t.keys = s.keys := by
  refine ⟨_, rfl, ?_⟩
  split
  · exact settleDeferred_keys s r
  · rfl

theorem execResetLine_keys : ∃ t, execResetLine s = .next t ∧ t.keys = s.keys := by
  refine ⟨_, rfl, ?_⟩
  split <;> rfl

end

/-! ### Supply and retention (R37, R38, R147, R171 to R173) -/

theorem execPowerLoss_keysOk {s : State} (hs : s.KeysOk) : ∃ t, execPowerLoss s = .next t ∧ t.KeysOk := by
  refine ⟨_, rfl, ?_⟩
  split
  · exact hs
  · exact noLoads_keysOk hs rfl rfl

theorem execStoreLost_keysOk {s : State} (hs : s.KeysOk) (straps : BitVec 6) :
    ∃ t, execStoreLost straps s = .next t ∧ t.KeysOk := by
  refine ⟨_, rfl, ?_⟩
  split
  · exact emptyKeys_keysOk rfl
  · exact hs

theorem resumeRolling_keysOk {s : State} (hs : s.KeysOk) : s.resumeRolling.KeysOk := by
  unfold State.resumeRolling
  split
  · exact foldl_keeps State.KeysOk _ (fun _ f h => rollWhole_keysOk h f) _ _ hs
  · exact hs

theorem resume_keysOk {s : State} (hs : s.KeysOk) : s.resume.KeysOk := by
  unfold State.resume
  split
  · exact hs
  · exact (resumeRolling_keysOk hs).kept rfl
  · have hclosed : s.resumeClosing.KeysOk := hs.kept (resumeClosing_keys s).1
    exact (resumeRolling_keysOk hclosed).kept rfl

/-- The warm restore: the loads in hand are gone, every operation is undone, an interrupted procedure rolls the families
still to be rolled (R37, R147, R172). -/
theorem warmRestore_keysOk {s : State} (hs : s.KeysOk) (straps : BitVec 6) : (s.warmRestore straps).KeysOk := by
  have hstart : (restoreStart s straps).KeysOk := noLoads_keysOk hs rfl rfl
  rw [warmRestore_eq]
  have hrewound : (rewindEach (restoreStart s straps) (List.finRange 4)).KeysOk :=
    foldl_keeps State.KeysOk _ (fun b r h => h.kept (State.rewind_keys b r)) _ _ hstart
  have hsettled : (rewindEach (restoreStart s straps) (List.finRange 4)).settleAll.KeysOk :=
    hrewound.kept (settleAll_keys _)
  have hundone : (rewindEach (restoreStart s straps) (List.finRange 4)).settleAll.undoAll.KeysOk :=
    foldl_keeps State.KeysOk _ (fun _ f h => undoFamily_keysOk h f) _ _ hsettled
  exact resume_keysOk (hundone.kept (restoreTail_keys _).1)

theorem execWarmRestore_keysOk {s : State} (hs : s.KeysOk) (straps : BitVec 6) :
    ∃ t, execWarmRestore straps s = .next t ∧ t.KeysOk := by
  refine ⟨_, rfl, ?_⟩
  split
  · exact warmRestore_keysOk hs straps
  · exact hs

/-! ### Every step -/

/-- An event that leaves the families as they are keeps them in order. -/
theorem keysOk_of_keys {o : Host.Outcome State Fault Refusal} {s : State} (hs : s.KeysOk)
    (h : ∃ t, o = .next t ∧ t.keys = s.keys) : ∃ t, o = .next t ∧ t.KeysOk := by
  obtain ⟨t, he, hk⟩ := h
  exact ⟨t, he, hs.kept hk⟩

/-- Every command answers next and keeps the key families in order. -/
theorem exec_keysOk (c : Instr) {s : State} (hs : s.KeysOk) : ∃ t, exec c s = .next t ∧ t.KeysOk := by
  have hspoil : ∀ b : State, (id b).keys = b.keys := fun _ => rfl
  have habandon : ∀ b : State, b.abandon.keys = b.keys := fun _ => rfl
  cases c with
  | auth l corr p => exact ⟨_, rfl, hs.kept (laneRequest_keys fun i b => wrapRequestAct_keys corr b .auth i p)⟩
  | refund l corr p => exact ⟨_, rfl, hs.kept (laneRequest_keys fun i b => wrapRequestAct_keys corr b .refund i p)⟩
  | reversal l corr p => exact ⟨_, rfl, hs.kept (laneRequest_keys fun i b => wrapRequestAct_keys corr b .reversal i p)⟩
  | laneStatus l corr p => exact ⟨_, rfl, hs.kept (laneRequest_keys fun _ _ => rfl)⟩
  | linkReset l corr p => exact keysOk_of_keys hs (execLinkReset_keys s l corr p)
  | frameBad l chars => exact keysOk_of_keys hs (execFrameBad_keys s l chars)
  | lineBreak l => exact keysOk_of_keys hs (execLineBreak_keys s l)
  | lineBreakEnd l => exact ⟨_, rfl, hs.kept rfl⟩
  | grant => exact execGrant_keysOk hs
  | completion => exact keysOk_of_keys hs (execCompletion_keys s)
  | enrol l corr p =>
    exact ⟨_, rfl, hs.kept (request_keys hspoil fun _ b => onTerminal_keys fun t a => enrolAct_keys l corr t b a)⟩
  | holdTerminal l corr p => exact ⟨_, rfl, hs.kept (terminalCommand_keys fun _ _ => onEnrolled_keys rfl)⟩
  | releaseTerminal l corr p =>
    exact ⟨_, rfl, hs.kept (terminalCommand_keys fun t b => releaseTerminalAct_keys l corr t b)⟩
  | move l corr p =>
    exact ⟨_, rfl, hs.kept (request_keys hspoil fun _ b => onTerminal_keys fun t a => moveAct_keys l corr t b a)⟩
  | retire l corr p => exact ⟨_, rfl, hs.kept (terminalCommand_keys fun _ _ => onEnrolled_keys rfl)⟩
  | setFloor l corr p =>
    exact ⟨_, rfl, hs.kept (request_keys hspoil fun _ _ => onTerminal_keys fun _ _ => onEnrolled_keys rfl)⟩
  | terminalQuery l corr p => exact ⟨_, rfl, hs.kept (request_keys hspoil (terminalQueryAct_keys l corr))⟩
  | keyLoad l corr p => exact ⟨_, rfl, request_keysOk hs hspoil fun a _ hb => keyLoadAct_keysOk hb l corr a⟩
  | loadCompletion f => exact execLoadCompletion_keysOk hs f
  | rollFamily l corr p => exact ⟨_, rfl, request_keysOk hs hspoil fun a _ hb => rollFamilyAct_keysOk hb l corr a⟩
  | rollCompletion f => exact execRollCompletion_keysOk hs f
  | retireFamily l corr p => exact ⟨_, rfl, request_keysOk hs hspoil fun a _ hb => retireFamilyAct_keysOk hb l corr a⟩
  | familyQuery l corr p => exact ⟨_, rfl, hs.kept (request_keys hspoil (familyQueryAct_keys l corr))⟩
  | setCeiling l corr p =>
    exact ⟨_, rfl, hs.kept (request_keys hspoil fun a b => setCeilingAct_keys l corr a.1 b a.2)⟩
  | holdLane l corr p => exact ⟨_, rfl, hs.kept (request_keys hspoil fun a b => laneHoldAct_keys l corr a b true)⟩
  | releaseLane l corr p => exact ⟨_, rfl, hs.kept (request_keys hspoil fun a b => laneHoldAct_keys l corr a b false)⟩
  | routeUp l corr p => exact ⟨_, rfl, hs.kept (routeCommand_keys (routeUpAct_keys l corr))⟩
  | routeDown l corr p => exact ⟨_, rfl, hs.kept (routeCommand_keys (routeDownAct_keys l corr))⟩
  | pullOne l corr p => exact ⟨_, rfl, hs.kept (routeCommand_keys (pullOneAct_keys l corr))⟩
  | pullBlock l corr p =>
    exact ⟨_, rfl, hs.kept (request_keys hspoil fun a b => onRoute_keys fun r c => pullBlockAct_keys l corr r c b a.2)⟩
  | streamOpen l corr p =>
    exact ⟨_, rfl, hs.kept (request_keys hspoil fun a b =>
      onRoute_keys fun r c => streamOpenAct_keys l corr r c b a.2.1 a.2.2)⟩
  | streamClose l corr p => exact ⟨_, rfl, hs.kept (routeCommand_keys fun _ _ _ => rfl)⟩
  | streamOffer l => exact keysOk_of_keys hs (execStreamOffer_keys s l)
  | transmitComplete l => exact keysOk_of_keys hs (execTransmitComplete_keys s l)
  | ackOne l corr p =>
    exact ⟨_, rfl, hs.kept (request_keys hspoil fun a b =>
      onRoute_keys fun r c => ackOneAct_keys l corr r c b a.2.1 a.2.2)⟩
  | ackOldest l corr p => exact ⟨_, rfl, hs.kept (routeCommand_keys (ackOldestAct_keys l corr))⟩
  | ackThrough l corr p =>
    exact ⟨_, rfl, hs.kept (request_keys hspoil fun _ b => onRoute_keys fun r c => acknowledgeAll_keys b r c _)⟩
  | ackTimerExpiry r => exact keysOk_of_keys hs (execAckTimerExpiry_keys s r)
  | tick => exact keysOk_of_keys hs (execTick_keys s)
  | nearWarning => exact keysOk_of_keys hs (execNearWarning_keys s)
  | cutoverMatch => exact keysOk_of_keys hs (execCutoverMatch_keys s)
  | cutoverClosingStart => exact keysOk_of_keys hs (execCutoverClosingStart_keys s)
  | cutoverRouteClose => exact keysOk_of_keys hs (execCutoverRouteClose_keys s)
  | cutoverFamilyRoll => exact execCutoverFamilyRoll_keysOk hs
  | setClock l corr p => exact ⟨_, rfl, hs.kept (request_keys hspoil fun a b => setClockAct_keys l corr b a)⟩
  | setCutover l corr p => exact ⟨_, rfl, hs.kept (request_keys hspoil fun a b => setCutoverAct_keys l corr b a)⟩
  | closeBatch l corr p => exact ⟨_, rfl, hs.kept (request_keys hspoil (closeBatchAct_keys l corr))⟩
  | deferredClose r => exact keysOk_of_keys hs (execDeferredClose_keys s r)
  | setupBegin l corr p => exact ⟨_, rfl, hs.kept (request_keys habandon fun a b => setupBeginAct_keys l corr b a)⟩
  | routeDefine l corr p => exact ⟨_, rfl, hs.kept (request_keys habandon fun a b => routeDefineAct_keys l corr b a)⟩
  | setupEnd l corr p => exact ⟨_, rfl, hs.kept (request_keys habandon fun _ b => setupEndAct_keys l corr b)⟩
  | statusRead l corr p => exact ⟨_, rfl, hs.kept (request_keys hspoil fun _ _ => rfl)⟩
  | faultRead l corr p => exact ⟨_, rfl, hs.kept (request_keys hspoil fun _ b => faultReadAct_keys l corr b)⟩
  | routeQuery l corr p => exact ⟨_, rfl, hs.kept (request_keys hspoil (routeQueryAct_keys l corr))⟩
  | erase l corr p => exact ⟨_, rfl, request_keysOk hs hspoil fun _ _ _ => emptyKeys_keysOk rfl⟩
  | warmRestore straps => exact execWarmRestore_keysOk hs straps
  | storeLost straps => exact execStoreLost_keysOk hs straps
  | resetLine => exact keysOk_of_keys hs (execResetLine_keys s)
  | powerLoss => exact execPowerLoss_keysOk hs
  | retentionLoss => exact ⟨_, rfl, hs.kept rfl⟩
  | unknownKind l corr kind p => exact keysOk_of_keys hs (execUnknownKind_keys s l corr kind p)

/-- Settles O53: each family's record is followed through every operation that writes it; every other leaves the Key Family
Unit as it is. -/
theorem stepKeepsKeysOk : Obligations.StepKeepsKeysOk := by
  intro s t hs hstep
  unfold step at hstep
  split at hstep
  · cases hstep
    exact hs
  · next c rest _ =>
    have hb : State.KeysOk { s with pending := rest } := hs.kept rfl
    obtain ⟨u, hu, hok⟩ := exec_keysOk c hb
    rw [hu] at hstep
    cases hstep
    exact hok

/-! ### The family commands on a link that hears them (R28, R31, R35) -/

theorem flagOf_eq_none {b : Byte} (h : 2 ≤ b.toNat) : flagOf b = none := by
  have h0 : b ≠ 0#8 := by rintro rfl; simp at h
  have h1 : b ≠ 1#8 := by rintro rfl; simp at h
  simp [flagOf, h0, h1]

theorem flagOf_of_le {b : Byte} (h : b.toNat ≤ 1) : flagOf b = some (b == 1#8) := by
  have hb : b = 0#8 ∨ b = 1#8 := by
    rcases Nat.le_one_iff_eq_zero_or_eq_one.mp h with h | h
    · exact Or.inl (BitVec.eq_of_toNat_eq h)
    · exact Or.inr (BitVec.eq_of_toNat_eq h)
  rcases hb with rfl | rfl <;> rfl

/-- The fields of KEY LOAD as they lie in its 43 bytes (R174). -/
theorem parseLoad_fields (f c2 c1 c0 l2 l1 l0 roll : Byte) {wrapped check : List Byte} (hw : wrapped.length = 32)
    (hc : check.length = 3) :
    parseLoad (f :: c2 :: c1 :: c0 :: l2 :: l1 :: l0 :: roll :: (wrapped ++ check)) =
      some ⟨f, numberOf [c2, c1, c0], numberOf [l2, l1, l0], roll, wrapped, BitVec.ofNat 24 (numberOf check)⟩ := by
  simp [parseLoad, hw, hc, List.take_left' hw, List.drop_left' hw]

theorem parseLoad_eq_none {p : List Byte} (h : p.length ≠ 43) : parseLoad p = none := by
  simp [parseLoad, h]

/-- KEY LOAD's fields in range (R28 check 2). -/
theorem load_of_range {b : LoadBytes} {f : FamilyNo} (hf : b.family.toNat = f.val) (h1 : 1 ≤ b.ceiling)
    (h2 : b.ceiling ≤ 1048575) (hlow : b.low ≤ b.ceiling) (hroll : b.roll.toNat ≤ 1) :
    b.load = some (f, ⟨b.wrapped, b.check, b.ceiling, b.low, b.roll == 1#8⟩) := by
  simp [LoadBytes.load, indexOf_val b.family f hf, flagOf_of_le hroll, h1, h2, hlow]

/-- One field out of range leaves nothing to load (R28 check 2). -/
theorem load_eq_none {b : LoadBytes}
    (h : 8 ≤ b.family.toNat ∨ b.ceiling = 0 ∨ 1048575 < b.ceiling ∨ b.ceiling < b.low ∨ 2 ≤ b.roll.toNat) :
    b.load = none := by
  unfold LoadBytes.load
  split
  · next f roll hf hroll =>
    refine if_neg fun hrange => ?_
    rcases h with h | h | h | h | h
    · simp [indexOf_none b.family h] at hf
    · omega
    · omega
    · omega
    · simp [flagOf_eq_none h] at hroll
  · rfl

section

variable {l : LinkId} {corr b : Byte} {p : List Byte} {raw : LoadBytes} {f : FamilyNo} {w : LoadWork} {s : State}

theorem exec_keyLoad_heard (h : s.Hears .service 43) (hlen : p.length = 43) (hraw : parseLoad p = some raw) :
    exec (.keyLoad .service corr p) s = .next (keyLoadAct .service corr raw s) :=
  congrArg Host.Outcome.next (request_taken (hlen ▸ h) (Nat.zero_le _) hraw)

/-- KEY LOAD with a field out of range (R28 check 2). -/
theorem keyLoadAct_range (hp : s.status.part ≠ .setup) (hload : raw.load = none) :
    keyLoadAct l corr raw s = s.answer l corr .badParameter := by
  simp [keyLoadAct, hp, hload]

/-- KEY LOAD outside SETUP with its fields in range goes on to its family (R28). -/
theorem keyLoadAct_taken (hp : s.status.part ≠ .setup) (hload : raw.load = some (f, w)) :
    keyLoadAct l corr raw s = keyLoadFamily l corr f w s := by
  simp [keyLoadAct, hp, hload]

theorem exec_rollFamily_heard (h : s.Hears l 1) (hl : isPartner l = true) :
    exec (.rollFamily l corr [b]) s = .next (rollFamilyAct l corr b s) :=
  congrArg Host.Outcome.next (request_taken (parse := parseByte) (p := [b]) h (linkRing_of_isPartner hl) rfl)

theorem rollFamilyAct_range (hp : s.status.part = .running) (hb : 8 ≤ b.toNat) :
    rollFamilyAct l corr b s = s.answer l corr .badParameter := by
  simp [rollFamilyAct, hp, indexOf_none b hb]

theorem rollFamilyAct_cutover (hp : s.status.part = .running) (hb : b.toNat = f.val) (hc : s.cutover.stage ≠ .idle) :
    rollFamilyAct l corr b s = s.answer l corr .cutoverActive := by
  simp [rollFamilyAct, hp, indexOf_val b f hb, hc]

/-- ROLL FAMILY on a RUNNING part with the cut-over IDLE goes on to its family (R31). -/
theorem rollFamilyAct_taken (hp : s.status.part = .running) (hb : b.toNat = f.val) (hc : s.cutover.stage = .idle) :
    rollFamilyAct l corr b s = rollFamilyOn l corr f s := by
  simp [rollFamilyAct, hp, indexOf_val b f hb, hc]

theorem exec_retireFamily_heard (h : s.Hears .service 1) :
    exec (.retireFamily .service corr [b]) s = .next (retireFamilyAct .service corr b s) :=
  congrArg Host.Outcome.next (request_taken (parse := parseByte) (p := [b]) h (Nat.zero_le _) rfl)

theorem retireFamilyAct_range (hp : s.status.part ≠ .setup) (hb : 8 ≤ b.toNat) :
    retireFamilyAct l corr b s = s.answer l corr .badParameter := by
  simp [retireFamilyAct, hp, indexOf_none b hb]

/-- RETIRE FAMILY outside SETUP goes on to its family (R35). -/
theorem retireFamilyAct_taken (hp : s.status.part ≠ .setup) (hb : b.toNat = f.val) :
    retireFamilyAct l corr b s = retireFamilyOn l corr f s := by
  simp [retireFamilyAct, hp, indexOf_val b f hb]

/-! ### The acts on a family, by its state (R28, R31, R35) -/

theorem familyBusy_eq_true : s.familyBusy f = true ↔
    (s.family f).now.state = .loading ∨ (s.family f).now.state = .rolling ∨ s.engine.servesFamily f = true := by
  simp [State.familyBusy, FamilyRecord.working, or_assoc]

/-- A family with no work in progress and no wrap in flight is free (R28, R31, R35). -/
theorem familyBusy_of_free (hload : (s.family f).now.state ≠ .loading) (hroll : (s.family f).now.state ≠ .rolling)
    (hserves : s.engine.servesFamily f = false) : s.familyBusy f = false :=
  familyBusy_eq_false.mpr ⟨FamilyRecord.working_eq_false.mpr ⟨hload, hroll⟩, hserves⟩

theorem familyBusy_of_serves (hst : (s.family f).now.state.Serves) (hserves : s.engine.servesFamily f = false) :
    s.familyBusy f = false :=
  familyBusy_eq_false.mpr ⟨hst.not_working, hserves⟩

theorem FamilyState.Serves.not_gone {st : FamilyState} (h : st.Serves) : ¬ (st = .empty ∨ st = .retired) := by
  rcases h with rfl | rfl | rfl <;> simp

theorem keyLoadFamily_busy (h : s.familyBusy f = true) : keyLoadFamily l corr f w s = s.answer l corr .familyBusy :=
  if_pos h

/-- KEY LOAD of a free family: it begins, or its generations are spent (R28 check 4). -/
theorem keyLoadFamily_free (h : s.familyBusy f = false) :
    keyLoadFamily l corr f w s =
      if (s.family f).now.generation < 65535 then
        ((s.setFamily f ((s.family f).begin .load .loading)).setLoad f (some w)).enqueue l (.place f corr)
      else s.answer l corr .generationSpent := by
  simp [keyLoadFamily, h]

theorem rollFamilyOn_gone (h : (s.family f).now.state = .empty ∨ (s.family f).now.state = .retired) :
    rollFamilyOn l corr f s = s.answer l corr .keyUnavailable :=
  if_pos h

theorem rollFamilyOn_busy (hgone : ¬ ((s.family f).now.state = .empty ∨ (s.family f).now.state = .retired))
    (h : s.familyBusy f = true) : rollFamilyOn l corr f s = s.answer l corr .familyBusy := by
  simp [rollFamilyOn, hgone, h]

/-- ROLL FAMILY of a serving family that is free: it begins, or its epochs are spent (R31 check 6). -/
theorem rollFamilyOn_free (hst : (s.family f).now.state.Serves) (hserves : s.engine.servesFamily f = false) :
    rollFamilyOn l corr f s =
      if (s.family f).now.epoch < 65535 then
        (s.setFamily f ((s.family f).begin .gatewayRoll .rolling)).enqueue l (.place f corr)
      else s.answer l corr .epochSpent := by
  simp [rollFamilyOn, hst.not_gone, familyBusy_of_serves hst hserves]

theorem retireFamilyOn_empty (h : (s.family f).now.state = .empty) :
    retireFamilyOn l corr f s = s.answer l corr .keyUnavailable :=
  if_pos h

theorem retireFamilyOn_busy (he : (s.family f).now.state ≠ .empty) (h : s.familyBusy f = true) :
    retireFamilyOn l corr f s = s.answer l corr .familyBusy := by
  simp [retireFamilyOn, he, h]

theorem retireFamilyOn_retired (hst : (s.family f).now.state = .retired) (hserves : s.engine.servesFamily f = false) :
    retireFamilyOn l corr f s = s.answer l corr .done := by
  have hfree := familyBusy_of_free (f := f) (s := s) (by simp [hst]) (by simp [hst]) hserves
  simp [retireFamilyOn, hst, hfree]

/-- RETIRE FAMILY of a serving family that is free (R35). -/
theorem retireFamilyOn_serves (hst : (s.family f).now.state.Serves) (hserves : s.engine.servesFamily f = false) :
    retireFamilyOn l corr f s =
      (s.setFamily f { s.family f with now := (s.family f).now.retire }).answer l corr .done := by
  obtain ⟨he, hr⟩ := not_or.mp hst.not_gone
  simp [retireFamilyOn, he, hr, familyBusy_of_serves hst hserves]

end

/-- Settles O26: each command through its checks to its family, then by whether the family is free and has a generation or
an epoch left. -/
theorem familyWorkStarts : Obligations.FamilyWorkStarts := by
  refine ⟨⟨fun f c2 c1 c0 l2 l1 l0 roll wrapped check hw hc => parseLoad_fields f c2 c1 c0 l2 l1 l0 roll hw hc,
      fun p hp => parseLoad_eq_none hp⟩, fun corr p raw s h hp hlen hraw => ?_, fun l corr b s h hl hp => ?_,
    fun corr b p f w raw s h hp hlen hraw hload _ hnl hnr hserves hgen => ?_,
    fun l corr b f s h hl hp hb hc hst hserves hepoch => ?_⟩
  · rw [exec_keyLoad_heard h hlen hraw]
    refine ⟨fun hout => by rw [keyLoadAct_range hp (load_eq_none hout)],
      fun f hf h1 h2 hlow hroll => load_of_range hf h1 h2 hlow hroll, fun f w hload hnl hnr hserves hspent => ?_⟩
    rw [keyLoadAct_taken hp hload, keyLoadFamily_free (familyBusy_of_free hnl hnr hserves), if_neg (not_lt.mpr hspent)]
  · rw [exec_rollFamily_heard h hl]
    refine ⟨fun hb => by rw [rollFamilyAct_range hp hb], fun f hb => ⟨fun hc => by rw [rollFamilyAct_cutover hp hb hc],
      fun hc => ?_⟩⟩
    rw [rollFamilyAct_taken hp hb hc]
    refine ⟨fun hgone => by rw [rollFamilyOn_gone hgone], fun hst hserves hspent => ?_⟩
    rw [rollFamilyOn_free hst hserves, if_neg (not_lt.mpr hspent)]
  · rw [exec_keyLoad_heard h hlen hraw, keyLoadAct_taken hp hload, keyLoadFamily_free (familyBusy_of_free hnl hnr hserves),
      if_pos hgen]
    rfl
  · rw [exec_rollFamily_heard h hl, rollFamilyAct_taken hp hb hc, rollFamilyOn_free hst hserves, if_pos hepoch]
    rfl

/-- Settles O27: the three commands on a busy family, then RETIRE FAMILY by the state of a free one. -/
theorem busyAndRetiredFamilies : Obligations.BusyAndRetiredFamilies := by
  refine ⟨fun corr b s h hp hb => ?_, fun corr b f s hb hbusy => ?_, fun corr b f s h hp hb hserves => ?_⟩
  · rw [exec_retireFamily_heard h, retireFamilyAct_range hp hb]
  · have hfamily : s.familyBusy f = true := familyBusy_eq_true.mpr hbusy
    refine ⟨fun p raw w h hp hlen hraw hload => ?_, fun l h hl hp hc he hr => ?_, fun h hp he => ?_⟩
    · rw [exec_keyLoad_heard h hlen hraw, keyLoadAct_taken hp hload, keyLoadFamily_busy hfamily]
    · rw [exec_rollFamily_heard h hl, rollFamilyAct_taken hp hb hc, rollFamilyOn_busy (not_or.mpr ⟨he, hr⟩) hfamily]
    · rw [exec_retireFamily_heard h, retireFamilyAct_taken hp hb, retireFamilyOn_busy he hfamily]
  · dsimp only
    rw [exec_retireFamily_heard h, retireFamilyAct_taken hp hb]
    refine ⟨fun hst => ?_, fun hst => by rw [retireFamilyOn_retired hst hserves],
      fun hst => by rw [retireFamilyOn_empty hst]⟩
    rw [retireFamilyOn_serves hst hserves]
    rfl

/-! ### Places and their answers (R39, R156) -/

/-- Entries that are no place of the family stay as they are (R156). -/
theorem fillPlace_append {f : FamilyNo} {code : Code} {reply : Reply} {before : List QueueEntry} (queue : List QueueEntry)
    (h : ∀ c, .place f c ∉ before) :
    fillPlace f code reply (before ++ queue) = before ++ fillPlace f code reply queue := by
  induction before with
  | nil => rfl
  | cons e rest ih =>
    have hrest : ∀ c, .place f c ∉ rest := fun c hc => h c (List.mem_cons_of_mem _ hc)
    cases e with
    | run first more => simp [fillPlace, ih hrest]
    | place g c =>
      have hg : g ≠ f := by
        rintro rfl
        exact h c List.mem_cons_self
      simp [fillPlace, hg, ih hrest]

/-- The first place of a family in a queue takes the answer, where it stands (R156). -/
theorem fillPlace_at {f : FamilyNo} {code : Code} {reply : Reply} {corr : Byte} {before after : List QueueEntry}
    (h : ∀ c, .place f c ∉ before) :
    fillPlace f code reply (before ++ .place f corr :: after) = before ++ .run (.answer corr code reply) [] :: after := by
  rw [fillPlace_append _ h]
  simp [fillPlace]

/-- Where a reset has emptied the place, the answer is discarded (R39, R160). -/
theorem fillPlace_absent {f : FamilyNo} {code : Code} {reply : Reply} {queue : List QueueEntry}
    (h : ∀ c, .place f c ∉ queue) : fillPlace f code reply queue = queue := by
  simpa [fillPlace] using fillPlace_append (code := code) (reply := reply) [] h

theorem link_fill (s : State) (f : FamilyNo) (code : Code) (reply : Reply) (l : LinkId) :
    (s.fill f code reply).link l = { s.link l with queue := fillPlace f code reply (s.link l).queue } := by
  simp [State.fill, State.link]

/-! ### The completions (R29, R32, R145) -/

theorem startState_eq_low (ceiling low : Nat) : (startState ceiling low == .low) = decide (ceiling ≤ low) := by
  unfold startState
  split
  · next h => simp [h]
  · next h => simp [h]

theorem awake_of_on {s : State} (h : s.supply = .on) : s.awake = true := by
  simp [State.awake, h]

theorem exec_loadCompletion {f : FamilyNo} {w : LoadWork} {s : State} (hon : s.supply = .on) (hop : (s.family f).op = .load)
    (hw : Vec.get s.keys.loads f = some w) :
    exec (.loadCompletion f) s = .next (s.finishLoad f w (Config.unwrapRoot Config.transportKey w.wrapped)
      (Config.rootCheck (Config.unwrapRoot Config.transportKey w.wrapped))) := by
  change execLoadCompletion f s = _
  simp [execLoadCompletion, awake_of_on hon, hop, hw]

/-- A load whose check value matches (R29). -/
theorem finishLoad_match {s : State} {f : FamilyNo} {w : LoadWork} {root : Root} {check : BitVec 24}
    (h : check = w.check) : s.finishLoad f w root check =
      (((s.setLoad f none).setFamily f (Family.settled ((s.family f).now.loaded w root))).raiseIf
        (decide (w.ceiling ≤ w.low)) .keyLow).fill f .done
          (.loaded f ((s.family f).now.generation + 1) (startState w.ceiling w.low)) := by
  rw [← startState_eq_low]
  exact if_pos h

/-- A load whose check value does not match gives the prior contents back (R29). -/
theorem finishLoad_mismatch {s : State} {f : FamilyNo} {w : LoadWork} {root : Root} {check : BitVec 24}
    {prior : FamilyRecord} (hp : (s.family f).prior = some prior) (h : check ≠ w.check) : s.finishLoad f w root check =
      ((s.setLoad f none).setFamily f (Family.settled prior)).fill f .checkMismatch .bare := by
  have hundone : (s.family f).undone = Family.settled prior := by simp [Family.undone, hp]
  rw [← hundone]
  exact if_neg h

theorem finishRoll_eq (s : State) (f : FamilyNo) : s.finishRoll f =
    (s.setFamily f (Family.settled (s.family f).now.rolled)).raiseIf
      (decide ((s.family f).now.ceiling ≤ (s.family f).now.low)) .keyLow := by
  rw [← startState_eq_low]
  rfl

theorem exec_rollCompletion_gateway {f : FamilyNo} {s : State} (hon : s.supply = .on)
    (hop : (s.family f).op = .gatewayRoll) : exec (.rollCompletion f) s =
      .next ((s.finishRoll f).fill f .done
        (.rolled f ((s.family f).now.epoch + 1) (startState (s.family f).now.ceiling (s.family f).now.low))) := by
  change execRollCompletion f s = _
  simp [execRollCompletion, awake_of_on hon, hop, FamilyRecord.rolled]

theorem exec_rollCompletion_cutover {f : FamilyNo} {s : State} (hon : s.supply = .on)
    (hop : (s.family f).op = .cutoverRoll) : exec (.rollCompletion f) s = .next ((s.finishRoll f).familyDone f) := by
  change execRollCompletion f s = _
  simp [execRollCompletion, awake_of_on hon, hop]

/-- The cut-over moves on to the family that follows (R145). -/
theorem familyDone_next {s : State} {f g : FamilyNo} (h : g.val = f.val + 1) :
    s.familyDone f = { s with cutover := { s.cutover with nextFamily := some g } } := by
  have hg : familyAfter f = some g := by
    unfold familyAfter
    rw [dif_pos (h ▸ g.isLt)]
    exact congrArg some (Fin.ext h.symm)
  unfold State.familyDone CutoverUnit.familyDone
  rw [hg]
  rfl

/-- After family 7 the cut-over is over (R145). -/
theorem familyDone_last {s : State} {f : FamilyNo} (h : f.val = 7) :
    s.familyDone f = State.raise
      { s with cutover := { s.cutover with nextFamily := none, matchTime := none, stage := .idle } } .cutoverDone := by
  have hnone : familyAfter f = none := dif_neg (by omega)
  unfold State.familyDone CutoverUnit.familyDone
  rw [hnone]
  rfl

/-- Settles O28: the place filled by induction on the response queue, then each completion by its outcome. -/
theorem familyWorkCompletes : Obligations.FamilyWorkCompletes := by
  refine ⟨fun s f code reply => ⟨rfl, fun l => ⟨fun before after corr hq hno => ?_, fun hno => ?_⟩⟩,
    fun f w prior s hon hop hp hw => ?_, fun f s hon => ⟨fun hop => ?_, fun hop => ⟨fun g hg => ?_, fun hlast => ?_⟩⟩⟩
  · rw [link_fill, hq, fillPlace_at hno]
  · rw [link_fill, fillPlace_absent hno]
  · dsimp only
    rw [exec_loadCompletion hon hop hw]
    exact ⟨fun hm => by rw [finishLoad_match hm]; rfl, fun hm => by rw [finishLoad_mismatch hp hm]; rfl⟩
  · rw [exec_rollCompletion_gateway hon hop, finishRoll_eq]
    rfl
  · rw [exec_rollCompletion_cutover hon hop, finishRoll_eq, familyDone_next hg]
    rfl
  · rw [exec_rollCompletion_cutover hon hop, finishRoll_eq, familyDone_last hlast]
    rfl

end Sys2Proof.Machine
end

section
/-! The accounts (03_amount_arithmetic_and_totals.md): every step keeps the sums and the offline acceptance within their
limits. -/

namespace Sys2Proof.Machine

/-! ### Arrival and the checks of commands, for any property

The receiving of a frame writes to its link alone, so a property that no write to a link disturbs passes through it. -/

section

variable (P : State → Prop) {l : LinkId} {corr b : Byte} {s : State}

/-- A frame that arrives keeps what a write to its link keeps (R151, R153, R156). -/
theorem frameArrives_keeps (h0 : P s) (hlink : ∀ b k, P b → P (b.setLink l k)) (body : List Byte) :
    (∃ t, frameArrives l body s = .gone t ∧ P t) ∨ (∃ t, frameArrives l body s = .taken t ∧ P t) := by
  have hends : ∀ b, EndsFrom s l b → P b := by
    rintro b (rfl | rfl | rfl)
    · exact h0
    · exact hlink s _ h0
    · exact hlink s _ h0
  rcases frameArrives_cases l body s with ⟨t, he, hb | ⟨b, hb, rfl, -⟩⟩ | ⟨t, he, hb, -⟩
  · exact Or.inl ⟨t, he, hends t hb⟩
  · exact Or.inl ⟨_, he, hlink b _ (hends b hb)⟩
  · exact Or.inr ⟨t, he, hends t hb⟩

/-- The checks of a route command keep what its refusals and its act keep (R116). -/
theorem onRoute_keeps {act : RouteNo → RouteConfig → State → State} (hans : ∀ code, P (s.answer l corr code))
    (hact : ∀ r c, s.status.part = .running → s.config r = some c → P (act r c s)) : P (onRoute l corr b act s) := by
  unfold onRoute
  split
  · next hp =>
    split
    · exact hans _
    · next r _ =>
      split
      · exact hans _
      · next c hc => exact hact r c hp hc
  · exact hans _

/-- The checks of a terminal command keep what its refusals and its act keep (R3). -/
theorem onTerminal_keeps {α : Type} {fields : Option α} {act : TerminalNo → α → State → State}
    (hans : ∀ code, P (s.answer l corr code)) (hact : ∀ t a, s.status.part = .running → P (act t a s)) :
    P (onTerminal l corr b fields act s) := by
  unfold onTerminal
  split
  · next hp =>
    split
    · exact hans _
    · split
      · exact hans _
      · exact hact _ _ hp
  · exact hans _

/-- A command on an ACTIVE or HELD entry keeps what its refusals and its act keep (R5, R6, R8 to R10). -/
theorem onEnrolled_keeps {t : TerminalNo} {act : State → State} (hans : ∀ code, P (s.answer l corr code))
    (hact : P (act s)) : P (onEnrolled l corr t act s) := by
  unfold onEnrolled
  split
  · exact hans _
  · exact hans _
  · exact hact
  · exact hact

end

/-! ### Totals (R48 to R51) -/

theorem Totals.zero_ok : Totals.zero.Ok := ⟨Nat.zero_le _, Nat.zero_le _, Nat.zero_le _⟩

theorem addSum_le (sum a : Nat) : addSum sum a ≤ Config.maxSum := Nat.min_le_right _ _

/-- Additions keep the sums within their limit (R51). -/
theorem Totals.Ok.add {t : Totals} (h : t.Ok) (what : Completed) (a : Nat) : (t.add what a).Ok := by
  cases what with
  | sale => exact ⟨addSum_le _ _, h.refund, h.reversal⟩
  | offlineSale => exact ⟨addSum_le _ _, h.refund, h.reversal⟩
  | refund => exact ⟨h.sale, addSum_le _ _, h.reversal⟩
  | reversal => exact ⟨h.sale, h.refund, addSum_le _ _⟩
  | withdrawal => exact ⟨h.sale, h.refund, addSum_le _ _⟩

/-- The release test leaves totals as they are: it frees only entries whose totals are zero (R11). -/
theorem release_totals (engine : Engine) (t : TerminalNo) (e : Terminal) : (release engine t e).totals = e.totals := by
  rcases release_cases engine t e with ⟨hr, hv⟩ | ⟨-, hk⟩
  · have hzero : e.totals = Totals.zero := by
      simp only [releasable, Bool.and_eq_true, beq_iff_eq] at hr
      obtain ⟨⟨⟨-, hzero⟩, -⟩, -⟩ := hr
      exact hzero
    rw [hv, hzero]
    rfl
  · rw [hk]

/-- A report leaves totals as they are (R17). -/
theorem reportTo_totals (engine : Engine) (ts : Vector Terminal 64) (t u : TerminalNo) (id : Identity) (ev : RecordEvent) :
    (Vec.get (reportTo engine ts t id ev) u).totals = (Vec.get ts u).totals := by
  by_cases htu : t = u
  · subst htu
    unfold reportTo
    dsimp only
    split
    · rw [Vec.get_put_same, release_totals]
    · rfl
  · rw [reportTo_other htu]

theorem Terminal.atSetup_totals (e : Terminal) (old new_ : Vector (Option RouteConfig) 4) :
    (e.atSetup old new_).totals = e.totals := by
  unfold Terminal.atSetup
  split
  · split <;> rfl
  · rfl

/-! ### What the wrap in flight owes an offline sum (R45, R49) -/

theorem servesRoute_eq_false {e : Engine} {r : RouteNo} :
    e.servesRoute r = false ↔ ∀ k w, e = .busy k w → k.route ≠ r := by
  cases e <;> simp [Engine.servesRoute]

theorem Engine.offlineOwed_eq_zero {e : Engine} {r : RouteNo} (h : e.servesRoute r = false) : e.offlineOwed r = 0 := by
  cases e with
  | idle => rfl
  | cut k => rfl
  | busy k w => exact if_neg fun hr => servesRoute_eq_false.mp h k w rfl hr.1

/-- What the completion of the wrap in flight adds to its route's offline sum is at most what it owes: an offline item adds
its amount, any other nothing (R49). -/
theorem ReservationWork.offlineAmount_le (k : ReservationKept) (w : ReservationWork) :
    w.completed.offlineAmount w.amount ≤ (Engine.busy k w).offlineOwed k.route := by
  unfold ReservationWork.completed
  split
  · split
    · next ho => simp [Completed.offlineAmount, Engine.offlineOwed, ho]
    · exact Nat.zero_le _
  · exact Nat.zero_le _
  · exact Nat.zero_le _

/-! ### Steps that leave sums, ceilings and the wrap in flight -/

/-- A step that leaves the routes' totals, offline sums and active ceilings, zeroes a terminal's totals if it changes them,
and puts no wrap in flight: one in flight afterwards was so before and owes the same, and the part has not left RUNNING. -/
structure AccountsKept (s t : State) : Prop where
  routes    : ∀ r, (t.account r).totals = (s.account r).totals ∧ (t.account r).offline = (s.account r).offline ∧
    (t.account r).active = (s.account r).active
  terminals : ∀ n, (t.term n).totals = (s.term n).totals ∨ (t.term n).totals = Totals.zero
  flight    : ∀ k w, t.engine = .busy k w →
    (∃ w', s.engine = .busy k w' ∧ w'.offline = w.offline ∧ w'.amount = w.amount) ∧
      (s.status.part = .running → t.status.part = .running)

theorem AccountsKept.refl (s : State) : AccountsKept s s :=
  ⟨fun _ => ⟨rfl, rfl, rfl⟩, fun _ => Or.inl rfl, fun _ w he => ⟨⟨w, he, rfl, rfl⟩, id⟩⟩

theorem AccountsKept.trans {s t u : State} (h : AccountsKept s t) (k : AccountsKept t u) : AccountsKept s u := by
  refine ⟨fun r => ?_, fun n => ?_, fun key w he => ?_⟩
  · obtain ⟨ht, ho, ha⟩ := h.routes r
    obtain ⟨ht', ho', ha'⟩ := k.routes r
    exact ⟨ht'.trans ht, ho'.trans ho, ha'.trans ha⟩
  · rcases k.terminals n with hk | hk
    · rw [hk]
      exact h.terminals n
    · exact Or.inr hk
  · obtain ⟨⟨w', he', ho', ha'⟩, hp'⟩ := k.flight key w he
    obtain ⟨⟨w'', he'', ho'', ha''⟩, hp''⟩ := h.flight key w' he'
    exact ⟨⟨w'', he'', ho''.trans ho', ha''.trans ha'⟩, hp' ∘ hp''⟩

/-- The usual case: accounts, entries and engine are the same, and the part has not left RUNNING. -/
theorem AccountsKept.of_eq {s t : State} (ha : t.accounts = s.accounts) (hts : t.terminals = s.terminals)
    (he : t.engine = s.engine) (hp : s.status.part = .running → t.status.part = .running) : AccountsKept s t := by
  refine ⟨fun r => ?_, fun n => ?_, fun k w hb => ⟨⟨w, he.symm.trans hb, rfl, rfl⟩, hp⟩⟩
  · simp only [State.account, ha, and_self]
  · simp only [State.term, hts, true_or]

/-- The same where the entries may be rewritten, each with the totals it had or with none. -/
theorem AccountsKept.of_totals {s t : State} (ha : t.accounts = s.accounts)
    (hts : ∀ n, (t.term n).totals = (s.term n).totals ∨ (t.term n).totals = Totals.zero)
    (he : t.engine = s.engine) (hp : s.status.part = .running → t.status.part = .running) : AccountsKept s t :=
  ⟨fun r => by simp only [State.account, ha, and_self], hts, fun _ w hb => ⟨⟨w, he.symm.trans hb, rfl, rfl⟩, hp⟩⟩

/-- A step that leaves sums and ceilings and no wrap in flight. -/
theorem AccountsKept.of_not_busy {s t : State} (ha : t.accounts = s.accounts) (hts : t.terminals = s.terminals)
    (he : ∀ k w, t.engine ≠ .busy k w) : AccountsKept s t := by
  refine ⟨fun r => ?_, fun n => ?_, fun k w hb => absurd hb (he k w)⟩
  · simp only [State.account, ha, and_self]
  · simp only [State.term, hts, true_or]

/-- An entry written with the totals it had, or with none. -/
theorem setTerm_accountsKept {s : State} {t : TerminalNo} {e : Terminal}
    (h : e.totals = (s.term t).totals ∨ e.totals = Totals.zero) : AccountsKept s (s.setTerm t e) := by
  refine .of_totals rfl (fun n => ?_) rfl id
  by_cases hn : t = n
  · subst hn
    rw [State.term_setTerm]
    exact h
  · rw [State.term_setTerm_ne s e hn]
    exact Or.inl rfl

theorem State.AccountsOk.kept {s t : State} (h : s.AccountsOk) (k : AccountsKept s t) : t.AccountsOk := by
  refine ⟨fun r => ?_, fun r => ?_, fun n => ?_, fun key w he => ?_⟩
  · obtain ⟨-, ho, ha⟩ := k.routes r
    have howed : t.engine.offlineOwed r ≤ s.engine.offlineOwed r := by
      cases he : t.engine with
      | idle => exact Nat.zero_le _
      | cut key => exact Nat.zero_le _
      | busy key w =>
        obtain ⟨⟨w', hs, hoff, hamt⟩, -⟩ := k.flight key w he
        simp only [hs, Engine.offlineOwed, hoff, hamt, le_refl]
    rw [ho, ha]
    exact (Nat.add_le_add_left howed _).trans (h.offline r)
  · rw [(k.routes r).1]
    exact h.routes r
  · rcases k.terminals n with ht | ht <;> rw [ht]
    · exact h.terminals n
    · exact Totals.zero_ok
  · obtain ⟨⟨w', hs, -⟩, hp⟩ := k.flight key w he
    exact hp (h.running key w' hs)

theorem setLink_accountsOk {s : State} (h : s.AccountsOk) (l : LinkId) (k : Link) : (s.setLink l k).AccountsOk :=
  h.kept (.of_eq rfl rfl rfl id)

theorem answer_accountsOk {s : State} (h : s.AccountsOk) (l : LinkId) (corr : Byte) (code : Code) (reply : Reply := .bare) :
    (s.answer l corr code reply).AccountsOk :=
  setLink_accountsOk h l _

theorem releaseTest_accountsKept (s : State) (t : TerminalNo) : AccountsKept s (s.releaseTest t) :=
  setTerm_accountsKept (Or.inl (release_totals _ _ _))

theorem releaseAll_accountsKept (s : State) : AccountsKept s s.releaseAll := by
  refine .of_totals rfl (fun n => ?_) rfl id
  simp only [State.releaseAll, State.term, Vec.get_gen, release_totals, true_or]

theorem rewind_accountsKept (s : State) (r : RouteNo) : AccountsKept s (s.rewind r) := by
  refine .of_totals rfl (fun n => ?_) rfl id
  rw [rewind_term]
  exact Or.inl rfl

/-- A part that is RUNNING has no setup sequence to abandon (R166). -/
theorem abandoned_running {u : StatusUnit} (h : u.part = .running) : u.abandoned.part = .running := by
  simp [StatusUnit.abandoned, h]

theorem abandon_accountsKept (s : State) : AccountsKept s s.abandon := .of_eq rfl rfl rfl abandoned_running

/-! ### Closes (R47, R109, R111) -/

/-- A close of a route with no wrap in flight: its offline sum is 0 under whatever ceiling becomes active (R47, R109). -/
theorem performClose_accountsOk {s : State} (h : s.AccountsOk) {r : RouteNo} (hfree : s.engine.servesRoute r = false)
    (why : CloseReason) : (s.performClose r why).AccountsOk := by
  have hself : (s.performClose r why).account r = (s.account r).afterClose := Vec.get_put_same _ _ _
  have hother : ∀ q, r ≠ q → (s.performClose r why).account q = s.account q := fun q hq => Vec.get_put_ne _ _ hq
  refine ⟨fun q => ?_, fun q => ?_, fun n => ?_, h.running⟩
  · rw [State.performClose_engine]
    by_cases hq : r = q
    · subst hq
      rw [hself, Engine.offlineOwed_eq_zero hfree]
      exact Nat.zero_le _
    · rw [hother q hq]
      exact h.offline q
  · by_cases hq : r = q
    · subst hq
      rw [hself]
      exact Totals.zero_ok
    · rw [hother q hq]
      exact h.routes q
  · rw [performClose_term]
    split
    · rw [release_totals]
      exact Totals.zero_ok
    · exact h.terminals n

theorem requestClose_accountsOk {s : State} (h : s.AccountsOk) (r : RouteNo) (why : CloseReason) :
    (s.requestClose r why).1.AccountsOk := by
  rcases requestClose_cases s r why with ⟨p, -, e⟩ | ⟨-, -, e⟩ | ⟨-, -, -, e⟩ | ⟨-, -, hfree, e⟩ <;> rw [e]
  · exact h
  · exact h.kept (.of_eq rfl rfl rfl id)
  · exact h.kept (.of_eq rfl rfl rfl id)
  · exact performClose_accountsOk h hfree why

theorem askClose_accountsOk {s : State} (h : s.AccountsOk) (r : RouteNo) : (s.askClose r).AccountsOk := by
  unfold State.askClose
  split
  · exact requestClose_accountsOk h r _
  · exact h

theorem settleDeferred_accountsOk {s : State} (h : s.AccountsOk) (r : RouteNo) : (s.settleDeferred r).AccountsOk := by
  rcases settleDeferred_cases s r with e | ⟨p, -, -, e⟩ | ⟨p, -, -, hfree, e⟩ <;> rw [e]
  · exact h
  · exact h.kept (.of_eq rfl rfl rfl id)
  · exact performClose_accountsOk h hfree _

theorem dueClose_accountsOk {s : State} (h : s.AccountsOk) {r : RouteNo} (hfree : s.engine.servesRoute r = false)
    (last : Bool) : (s.dueClose r last).AccountsOk := by
  rcases dueClose_cases s r last with e | ⟨why, -, e⟩ | e | e <;> rw [e]
  · exact h
  · exact performClose_accountsOk h hfree why
  · exact h.kept (.of_eq rfl rfl rfl id)
  · exact h.kept (.of_eq rfl rfl rfl id)

/-! ### Offers, acknowledgements, transmitters (R118, R121, R126, R130) -/

theorem takeDown_accountsKept (s : State) (r : RouteNo) (why : DownReason) (cause : EndCause) :
    AccountsKept s (s.takeDown r why cause) := by
  have hdown : ∀ b : State, AccountsKept b ((b.rewind r).setRoute r ((s.route r).takenDown why)) := fun b =>
    (rewind_accountsKept b r).trans (.of_eq rfl rfl rfl id)
  cases hst : (s.route r).stream with
  | none =>
    rw [takeDown_closed why cause hst]
    exact hdown s
  | some st =>
    rw [takeDown_open why cause hst]
    have hsend : AccountsKept s (s.send st.link (.streamEnd st.corr r cause)) := .of_eq rfl rfl rfl id
    exact hsend.trans (hdown _)

theorem offer_accountsKept {s s' : State} {r : RouteNo} {c : RouteConfig} {corr : Byte} {m : Message}
    (ho : s.offer r c corr = some (s', m)) : AccountsKept s s' := by
  rcases offer_cases ho with ⟨slot, rec, e, -, rfl, -⟩ | ⟨cl, e, -, rfl, -⟩
  · exact .of_totals rfl (fun n => Or.inl (reportTo_totals _ _ _ n _ _)) rfl id
  · exact .of_eq rfl rfl rfl id

theorem ackRecord_accountsKept (s : State) (r : RouteNo) (n : Nat) (rec : Record) : AccountsKept s (s.ackRecord r n rec) :=
  .of_totals rfl (fun t => Or.inl (reportTo_totals _ _ _ t _ _)) rfl id

theorem acknowledge_accountsOk {s : State} (h : s.AccountsOk) (r : RouteNo) (c : RouteConfig) (id : Identity) :
    (s.acknowledge r c id).AccountsOk := by
  unfold State.acknowledge
  have hroute : (s.setRoute r ((s.route r).unlisting c id)).AccountsOk := h.kept (.of_eq rfl rfl rfl fun hp => hp)
  generalize s.setRoute r ((s.route r).unlisting c id) = b at hroute ⊢
  rcases ackAtQueues_cases b r id with e | ⟨n, rec, -, -, -, e⟩ | ⟨cl, -, -, e⟩ <;> rw [e]
  · exact hroute
  · exact hroute.kept (ackRecord_accountsKept b r n rec)
  · refine settleDeferred_accountsOk ?_ r
    exact hroute.kept (.of_eq rfl rfl rfl fun hp => hp)

theorem serveStream_accountsKept (s : State) (l : LinkId) (r : RouteNo) : AccountsKept s (s.serveStream l r) := by
  unfold State.serveStream
  split
  · split
    · next ho =>
      refine (offer_accountsKept ho).trans ?_
      unfold State.endByCount
      dsimp only
      split <;> exact .of_eq rfl rfl rfl id
    · exact .refl s
  · exact .refl s

theorem nextMessage_accountsKept (s : State) (l : LinkId) : AccountsKept s (s.nextMessage l) := by
  unfold State.nextMessage
  split
  · exact .of_eq rfl rfl rfl id
  · split
    · exact serveStream_accountsKept s l _
    · exact .refl s

/-! ### The wrap in flight: GRANT, withdrawal and COMPLETION (R45, R49, R81, R85, R92) -/

/-- The offline decision accepts an amount within the floor limit that the active ceiling still holds (R45). -/
theorem offlineRefusal_eq_none {a floor : Nat} {acc : RouteAccount} :
    offlineRefusal a floor acc = none ↔ a ≤ floor ∧ acc.offline + a ≤ acc.active := by
  unfold offlineRefusal
  split
  · next h => simp [Nat.not_le.mpr h]
  · next h =>
    split
    · next h' => simp [Nat.not_le.mpr h']
    · next h' => simp [Nat.not_lt.mp h, Nat.not_lt.mp h']

/-- An item that check 6 takes offline fits under the active ceiling (R45, R81). -/
theorem classOf_offline {kind : WrapKind} {st : DispatchState} {a floor : Nat} {acc : RouteAccount} {cls : RecordClass}
    (h : classOf kind st a floor acc = .ok (cls, true)) : acc.offline + a ≤ acc.active := by
  unfold classOf at h
  split at h
  · cases h
  · split at h
    · cases h
    · next hnone => exact (offlineRefusal_eq_none.mp hnone).2
  · cases h
  · cases h
  · cases h

theorem laterChecks_offline {s : State} {e : Terminal} {kind : WrapKind} {amount : Nat} {ref : Option Reference} {p : WrapPlan}
    (h : s.laterChecks e kind amount ref = .wrap p) (ho : p.offline = true) :
    (s.account p.route).offline + p.amount ≤ (s.account p.route).active := by
  unfold State.laterChecks at h
  split at h
  · cases h
  · split at h
    · cases h
    · split at h
      · cases h
      · next hcls =>
        split at h
        · cases h
        · split at h
          · cases h
          · cases h
            subst ho
            exact classOf_offline hcls

/-- A wrap that the grant checks let through has passed checks 5 to 8 (R76). -/
theorem grantChecks_later {s : State} {q : Request} {p : WrapPlan} (h : s.grantChecks q = .wrap p) :
    ∃ e kind amount ref, s.laterChecks e kind amount ref = .wrap p := by
  unfold State.grantChecks at h
  dsimp only at h
  split at h
  · cases h
  · cases h
  · cases h
  · split at h
    · cases h
    · unfold State.itemChecks at h
      split at h
      · exact ⟨_, _, amountChecks_wrap h⟩
      · exact ⟨_, _, amountChecks_wrap h⟩
      · split at h
        · cases h
        · split at h
          · cases h
          · exact ⟨_, _, _, _, h⟩

/-- A wrap that the grant checks accept offline fits under its route's active ceiling (R45, R76). -/
theorem grantChecks_offline {s : State} {q : Request} {p : WrapPlan} (h : s.grantChecks q = .wrap p)
    (ho : p.offline = true) : (s.account p.route).offline + p.amount ≤ (s.account p.route).active := by
  obtain ⟨_, _, _, _, hlater⟩ := grantChecks_later h
  exact laterChecks_offline hlater ho

/-- A head is eligible only while the part is RUNNING (R64). -/
theorem running_of_eligible {s : State} {i : LaneNo} (h : s.eligible i = true) : s.status.part = .running := by
  simp only [State.eligible, State.grantsOpen, Bool.and_eq_true, beq_iff_eq] at h
  obtain ⟨⟨-, hrun⟩, -⟩ := h
  exact hrun

/-- The reservation of a wrap on an IDLE engine: what it owes its route's offline sum fits under the ceiling, as check 6
found (R45, R85). -/
theorem reserve_accountsOk {s : State} (hs : s.AccountsOk) (hrun : s.status.part = .running) (q : Request) {p : WrapPlan}
    (hroom : p.offline = true → (s.account p.route).offline + p.amount ≤ (s.account p.route).active) :
    (s.reserve q p).AccountsOk := by
  refine ⟨fun r => ?_, hs.routes, hs.terminals, fun _ _ _ => hrun⟩
  have hsum : (s.account r).offline ≤ (s.account r).active := (Nat.le_add_right _ _).trans (hs.offline r)
  have howed : (s.reserve q p).engine.offlineOwed r = if p.route = r ∧ p.offline = true then p.amount else 0 := rfl
  rw [howed]
  split
  · next hpr =>
    obtain ⟨rfl, ho⟩ := hpr
    exact hroom ho
  · exact hsum

/-- A completion's additions keep the sums within their limits where the offline sum has room for its share (R49, R51). -/
theorem addTotals_accountsOk {s : State} (hs : s.AccountsOk) {r : RouteNo} {what : Completed} {a : Nat}
    (hroom : (s.account r).offline + what.offlineAmount a + s.engine.offlineOwed r ≤ (s.account r).active)
    (t : TerminalNo) : (s.addTotals r t what a).AccountsOk := by
  refine ⟨fun q => ?_, fun q => ?_, fun n => ?_, hs.running⟩
  · simp only [State.addTotals, State.account, Vec.get_put]
    split
    · next hq =>
      subst hq
      exact hroom
    · exact hs.offline q
  · simp only [State.addTotals, State.account, Vec.get_put]
    split
    · exact (hs.routes r).add what a
    · exact hs.routes q
  · simp only [State.addTotals, State.term, Vec.get_put]
    split
    · exact (hs.terminals t).add what a
    · exact hs.terminals n

/-- A history list written and the entry release-tested, as a withdrawal and a completion end (R11, R14). -/
theorem setHistory_accountsOk {s : State} (hs : s.AccountsOk) (t : TerminalNo) (history : List HistoryEntry) :
    ((s.setTerm t { s.term t with history := history }).releaseTest t).AccountsOk := by
  have hset : AccountsKept s (s.setTerm t { s.term t with history := history }) := setTerm_accountsKept (Or.inl rfl)
  exact hs.kept (hset.trans (releaseTest_accountsKept _ t))

theorem voidRecord_accountsKept (s : State) (r : RouteNo) (till : Nat) (h : HistoryEntry) :
    AccountsKept s (s.voidRecord r till h) := by
  unfold State.voidRecord
  split
  · split <;> exact .of_eq rfl rfl rfl id
  · exact .refl s

theorem withdraw_accountsOk {s : State} (hs : s.AccountsOk) (q : Request) (h : HistoryEntry) : (s.withdraw q h).AccountsOk := by
  unfold State.withdraw
  dsimp only
  have hvoid := hs.kept (voidRecord_accountsKept s (s.term q.terminal).route q.till h)
  have hadd := addTotals_accountsOk (what := .withdrawal) (a := h.amount) hvoid
    (hvoid.offline (s.term q.terminal).route) q.terminal
  exact answer_accountsOk (setHistory_accountsOk hadd q.terminal _) _ _ _ _

/-- The outcome of the grant checks, carried out on a RUNNING part (R84, R85, R92). -/
theorem settleGrant_accountsOk {s : State} (hs : s.AccountsOk) (hrun : s.status.part = .running) (q : Request) :
    (s.settleGrant q (s.grantChecks q)).AccountsOk := by
  cases hv : s.grantChecks q with
  | refused code => exact answer_accountsOk hs _ _ _
  | duplicate h => exact answer_accountsOk hs _ _ _ _
  | withdraw h => exact withdraw_accountsOk hs q h
  | wrap p => exact reserve_accountsOk hs hrun q (grantChecks_offline hv)

theorem execGrant_accountsOk {s : State} (hs : s.AccountsOk) : ∃ t, execGrant s = .next t ∧ t.AccountsOk := by
  refine ⟨_, rfl, ?_⟩
  split
  · split
    · exact hs
    · next i hi =>
      split
      · exact hs
      · next q _ _ =>
        have hgranted : State.AccountsOk { s with intake := s.intake.granted i } := hs.kept (.of_eq rfl rfl rfl id)
        have hrun : s.status.part = .running := running_of_eligible (grantLane_eligible hi)
        exact settleGrant_accountsOk hgranted hrun q
  · exact hs

/-- A completion adds to the offline sum at most what its wrap owed (R49). -/
theorem completeWrap_accountsOk {s : State} {k : ReservationKept} {w : ReservationWork} (hs : s.AccountsOk)
    (he : s.engine = .busy k w) : (s.completeWrap k w).AccountsOk := by
  have hidle : State.AccountsOk { s with engine := .idle } :=
    hs.kept (.of_not_busy rfl rfl fun _ _ hb => by cases hb)
  have hroom : (s.account k.route).offline + w.completed.offlineAmount w.amount ≤ (s.account k.route).active := by
    have hsum := hs.offline k.route
    rw [he] at hsum
    exact (Nat.add_le_add_left (w.offlineAmount_le k) _).trans hsum
  unfold State.completeWrap
  dsimp only
  generalize hrec : s.completedRecord k w = rec
  have happend : (State.append { s with engine := .idle } k rec).AccountsOk := hidle.kept (.of_eq rfl rfl rfl id)
  have hraised : ∀ c, ((State.append { s with engine := .idle } k rec).raiseIf c .storeHigh).AccountsOk := fun c =>
    happend.kept (.of_eq rfl rfl rfl id)
  have hadded := fun c => addTotals_accountsOk (what := w.completed) (a := w.amount) (hraised c) (r := k.route) hroom w.terminal
  split
  · exact setHistory_accountsOk (hadded _) _ _
  · exact answer_accountsOk (setHistory_accountsOk (hadded _) _ _) _ _ _ _

theorem execCompletion_accountsOk {s : State} (hs : s.AccountsOk) : ∃ t, execCompletion s = .next t ∧ t.AccountsOk := by
  refine ⟨_, rfl, ?_⟩
  split
  · split
    · next k w he =>
      refine dueClose_accountsOk (completeWrap_accountsOk hs he) ?_ _
      rw [completeWrap_engine]
      rfl
    · exact hs
  · exact hs

/-! ### Acts that leave sums, ceilings and the wrap in flight

Each branch of such an act is a refusal, an update of other blocks, or an entry written with the totals it had or with
none. -/

section

variable (l : LinkId) (corr b : Byte) (s : State)

theorem wrapRequestAct_accountsKept (kind : WrapKind) (i : LaneNo) (p : List Byte) :
    AccountsKept s (wrapRequestAct kind i corr p s) := by
  unfold wrapRequestAct
  repeat' split
  all_goals exact .of_eq rfl rfl rfl id

theorem laneHoldAct_accountsKept (held : Bool) : AccountsKept s (laneHoldAct held l corr b s) := by
  unfold laneHoldAct
  repeat' split
  all_goals exact .of_eq rfl rfl rfl id

theorem keyLoadAct_accountsKept (a : LoadBytes) : AccountsKept s (keyLoadAct l corr a s) := by
  unfold keyLoadAct keyLoadFamily
  repeat' split
  all_goals exact .of_eq rfl rfl rfl id

theorem rollFamilyAct_accountsKept : AccountsKept s (rollFamilyAct l corr b s) := by
  unfold rollFamilyAct rollFamilyOn
  dsimp only
  repeat' split
  all_goals exact .of_eq rfl rfl rfl id

theorem retireFamilyAct_accountsKept : AccountsKept s (retireFamilyAct l corr b s) := by
  unfold retireFamilyAct retireFamilyOn
  dsimp only
  repeat' split
  all_goals exact .of_eq rfl rfl rfl id

theorem familyQueryAct_accountsKept : AccountsKept s (familyQueryAct l corr b s) := by
  unfold familyQueryAct
  split <;> exact .of_eq rfl rfl rfl id

theorem terminalQueryAct_accountsKept : AccountsKept s (terminalQueryAct l corr b s) := by
  unfold terminalQueryAct
  split <;> exact .of_eq rfl rfl rfl id

theorem routeUpAct_accountsKept (r : RouteNo) (c : RouteConfig) : AccountsKept s (routeUpAct l corr r c s) := by
  unfold routeUpAct
  dsimp only
  split <;> exact .of_eq rfl rfl rfl id

theorem streamOpenAct_accountsKept (n renew : Byte) (r : RouteNo) (c : RouteConfig) :
    AccountsKept s (streamOpenAct l corr n renew r c s) := by
  unfold streamOpenAct
  repeat' split
  all_goals exact .of_eq rfl rfl rfl id

theorem routeQueryAct_accountsKept : AccountsKept s (routeQueryAct l corr b s) := by
  unfold routeQueryAct
  repeat' split
  all_goals exact .of_eq rfl rfl rfl id

theorem setClockAct_accountsKept (time : ClockTime) : AccountsKept s (setClockAct l corr time s) := by
  unfold setClockAct
  repeat' split
  all_goals exact .of_eq rfl rfl rfl id

theorem setCutoverAct_accountsKept (a : Byte × Byte × Byte) : AccountsKept s (setCutoverAct l corr a s) := by
  unfold setCutoverAct
  repeat' split
  all_goals exact .of_eq rfl rfl rfl id

theorem faultReadAct_accountsKept : AccountsKept s (faultReadAct l corr s) := by
  unfold faultReadAct
  dsimp only
  split <;> exact .of_eq rfl rfl rfl id

/-- SET CEILING writes the pending ceiling, not the active one (R46, R47). -/
theorem setPending_accountsKept (r : RouteNo) (v : Nat) :
    AccountsKept s (s.setAccount r { s.account r with pending := v }) := by
  refine ⟨fun q => ?_, fun _ => Or.inl rfl, fun _ w he => ⟨⟨w, he, rfl, rfl⟩, id⟩⟩
  by_cases hq : r = q
  · subst hq
    rw [State.account_setAccount]
    exact ⟨rfl, rfl, rfl⟩
  · rw [State.account_setAccount_ne s _ hq]
    exact ⟨rfl, rfl, rfl⟩

theorem setCeilingAct_accountsKept (digits : List Byte) : AccountsKept s (setCeilingAct l corr b digits s) := by
  unfold setCeilingAct
  split
  · split
    · next r v _ _ =>
      split
      · exact (setPending_accountsKept s r v).trans (.of_eq rfl rfl rfl id)
      · exact .of_eq rfl rfl rfl id
    · exact .of_eq rfl rfl rfl id
  · exact .of_eq rfl rfl rfl id

end

/-! ### Terminal commands (R4 to R10) -/

/-- An edit of an entry that leaves its totals or has none, with its answer. -/
theorem setTerm_answer_accountsOk {s : State} (hs : s.AccountsOk) {t : TerminalNo} {e : Terminal}
    (he : e.totals = (s.term t).totals ∨ e.totals = Totals.zero) (l : LinkId) (corr : Byte) (code : Code) :
    ((s.setTerm t e).answer l corr code).AccountsOk :=
  answer_accountsOk (hs.kept (setTerm_accountsKept he)) l corr code

/-- A command on an ACTIVE or HELD entry keeps what its act keeps. -/
theorem onEnrolled_accountsOk {s : State} (hs : s.AccountsOk) {l : LinkId} {corr : Byte} {t : TerminalNo}
    {act : State → State} (hact : (act s).AccountsOk) : (onEnrolled l corr t act s).AccountsOk :=
  onEnrolled_keeps State.AccountsOk (fun code => answer_accountsOk hs l corr code) hact

section

variable {s : State} (hs : s.AccountsOk) (l : LinkId) (corr : Byte) (t : TerminalNo)
include hs

theorem enrolAct_accountsOk (a : Place × Nat) : (enrolAct l corr t a s).AccountsOk := by
  unfold enrolAct
  split
  · exact answer_accountsOk hs _ _ _
  · exact answer_accountsOk hs _ _ _
  · exact answer_accountsOk hs _ _ _
  · split
    · split
      · exact answer_accountsOk hs _ _ _
      · exact setTerm_answer_accountsOk hs (Or.inr rfl) _ _ _
    · exact answer_accountsOk hs _ _ _

theorem holdTerminalAct_accountsOk : (holdTerminalAct l corr t s).AccountsOk :=
  onEnrolled_accountsOk hs
    (setTerm_answer_accountsOk (e := { s.term t with state := .held }) hs (Or.inl rfl) l corr .done)

theorem releaseTerminalAct_accountsOk : (releaseTerminalAct l corr t s).AccountsOk := by
  refine onEnrolled_accountsOk hs ?_
  unfold releaseTerminalEnrolled
  split
  · exact answer_accountsOk hs _ _ _
  · exact setTerm_answer_accountsOk (e := { s.term t with state := .active }) hs (Or.inl rfl) l corr .done

theorem moveAct_accountsOk (p : Place) : (moveAct l corr t p s).AccountsOk := by
  refine onEnrolled_accountsOk hs ?_
  unfold moveEnrolled
  split
  · split
    · split
      · exact answer_accountsOk hs _ _ _
      · exact setTerm_answer_accountsOk (e := (s.term t).movedTo p) hs (Or.inl rfl) l corr .done
    · exact answer_accountsOk hs _ _ _
  · exact answer_accountsOk hs _ _ _

theorem retireAct_accountsOk : (retireAct l corr t s).AccountsOk := by
  have hclosing : (s.setTerm t { s.term t with state := .closing }).AccountsOk :=
    hs.kept (setTerm_accountsKept (Or.inl rfl))
  exact onEnrolled_accountsOk hs (answer_accountsOk (hclosing.kept (releaseTest_accountsKept _ t)) _ _ _ _)

theorem setFloorAct_accountsOk (floor : Nat) : (setFloorAct l corr t floor s).AccountsOk :=
  onEnrolled_accountsOk hs
    (setTerm_answer_accountsOk (e := { s.term t with floor := floor }) hs (Or.inl rfl) l corr .done)

end

/-! ### Route commands and closes (R117 to R130, R146) -/

section

variable {s : State} (hs : s.AccountsOk) (l : LinkId) (corr : Byte) (r : RouteNo) (c : RouteConfig)
include hs

theorem routeDownAct_accountsOk : (routeDownAct l corr r c s).AccountsOk := by
  unfold routeDownAct
  dsimp only
  split
  · exact answer_accountsOk (hs.kept (takeDown_accountsKept s r .command .routeDown)) _ _ _
  · exact hs.kept (.of_eq rfl rfl rfl id)

theorem pullOneAct_accountsOk : (pullOneAct l corr r c s).AccountsOk := by
  unfold pullOneAct
  split
  · split
    · split
      · exact answer_accountsOk hs _ _ _
      · next ho => exact setLink_accountsOk (hs.kept (offer_accountsKept ho)) l _
    · exact answer_accountsOk hs _ _ _
  · exact answer_accountsOk hs _ _ _

theorem pullBlockAct_accountsOk (n : Byte) : (pullBlockAct l corr n r c s).AccountsOk := by
  unfold pullBlockAct
  split
  · have hrun := offerRun_keeps State.AccountsOk (r := r) (c := c) (corr := corr)
      (fun _ _ _ hb _ ho => hb.kept (offer_accountsKept ho)) (blockCount n.toNat) s hs
    exact setLink_accountsOk hrun l _
  · exact answer_accountsOk hs _ _ _

theorem ackOneAct_accountsOk (batch sq : Nat) : (ackOneAct l corr batch sq r c s).AccountsOk := by
  unfold ackOneAct
  split
  · exact answer_accountsOk (acknowledge_accountsOk hs r c _) _ _ _ _
  · exact answer_accountsOk hs _ _ _

theorem ackOldestAct_accountsOk : (ackOldestAct l corr r c s).AccountsOk := by
  unfold ackOldestAct
  split
  · exact answer_accountsOk hs _ _ _
  · exact answer_accountsOk (acknowledge_accountsOk hs r c _) _ _ _ _

theorem ackThroughAct_accountsOk (batch sq : Nat) : (ackThroughAct l corr batch sq r c s).AccountsOk := by
  have hacked := acknowledgeAll_keeps State.AccountsOk (r := r) (c := c)
    (fun _ id hb => acknowledge_accountsOk hb r c id) (s.covered r batch sq) s hs
  exact answer_accountsOk hacked _ _ _ _

theorem closeBatchAct_accountsOk (b : Byte) : (closeBatchAct l corr b s).AccountsOk := by
  unfold closeBatchAct
  split
  · split
    · exact answer_accountsOk hs _ _ _
    · split
      · split
        · exact answer_accountsOk (requestClose_accountsOk hs _ .manual) _ _ _ _
        · exact answer_accountsOk hs _ _ _
      · exact answer_accountsOk hs _ _ _
  · exact answer_accountsOk hs _ _ _

end

/-! ### Setup and ERASE (R57, R71, R163 to R166, R173) -/

/-- While the part is not RUNNING no wrap is in flight (R71). -/
theorem State.AccountsOk.not_busy {s : State} (h : s.AccountsOk) (hp : s.status.part ≠ .running)
    (k : ReservationKept) (w : ReservationWork) : s.engine ≠ .busy k w :=
  fun he => hp (h.running k w he)

/-- A SETUP BEGIN that passes finds no wrap in flight: the part is not RUNNING, or nothing is in transit (R71, R163). -/
theorem openSetup_accountsKept {s : State} (h : s.AccountsOk)
    (hempty : ¬ (s.status.part = .running ∧ s.nothingInTransit = false)) (n : Nat) (flags : Byte) :
    AccountsKept s (s.openSetup n flags) := by
  refine .of_not_busy rfl rfl fun k w he => ?_
  have hbusy : s.engine = .busy k w := he
  have htransit : s.nothingInTransit = false := by simp [State.nothingInTransit, hbusy, Engine.isIdle]
  exact hempty ⟨h.running k w hbusy, htransit⟩

theorem setupBeginAct_accountsOk {s : State} (hs : s.AccountsOk) (l : LinkId) (corr : Byte) (a : Byte × Byte) :
    (setupBeginAct l corr a s).AccountsOk := by
  unfold setupBeginAct
  split
  · exact answer_accountsOk (hs.kept (abandon_accountsKept s)) _ _ _
  · split
    · exact answer_accountsOk hs _ _ _
    · split
      · exact answer_accountsOk hs _ _ _
      · next hempty => exact answer_accountsOk (hs.kept (openSetup_accountsKept hs hempty _ _)) _ _ _

theorem routeDefineAct_accountsKept (l : LinkId) (corr : Byte) (a : DefineBytes) (s : State) :
    AccountsKept s (routeDefineAct l corr a s) := by
  have habandon : ∀ code, AccountsKept s (s.abandon.answer l corr code) := fun _ => .of_eq rfl rfl rfl abandoned_running
  unfold routeDefineAct routeDefineStaged
  split
  · split
    · split
      · split
        · exact habandon _
        · exact .of_eq rfl rfl rfl id
      · exact habandon _
    · exact habandon _
  · exact .of_eq rfl rfl rfl id

/-- Totals and offline sum of a route start at 0 with a configuration (R57). -/
theorem accountAtSetup_zero (c : Option RouteConfig) :
    (accountAtSetup c).totals = Totals.zero ∧ (accountAtSetup c).offline = 0 := by
  cases c <;> exact ⟨rfl, rfl⟩

theorem install_accountsOk {s : State} (hs : s.AccountsOk) (hp : s.status.part ≠ .running) (g : Staged) :
    (s.install g).AccountsOk := by
  have hacc : ∀ r, (s.install g).account r = accountAtSetup (Vec.get g.config r) := fun r => Vec.get_gen _ r
  refine ⟨fun r => ?_, fun r => ?_, fun n => ?_, fun k w he => absurd he (hs.not_busy hp k w)⟩
  · have hfree : (s.install g).engine.servesRoute r = false :=
      servesRoute_eq_false.mpr fun k w he => absurd he (hs.not_busy hp k w)
    rw [hacc, (accountAtSetup_zero _).2, Engine.offlineOwed_eq_zero hfree]
    exact Nat.zero_le _
  · rw [hacc, (accountAtSetup_zero _).1]
    exact Totals.zero_ok
  · simp only [State.install, State.term, Vec.get_gen, Terminal.atSetup_totals]
    exact hs.terminals n

theorem setupEndAct_accountsOk {s : State} (hs : s.AccountsOk) (l : LinkId) (corr : Byte) :
    (setupEndAct l corr s).AccountsOk := by
  have habandon : ∀ code, (s.abandon.answer l corr code).AccountsOk := fun _ =>
    answer_accountsOk (hs.kept (abandon_accountsKept s)) _ _ _
  unfold setupEndAct
  split
  · next hp =>
    split
    · next g _ =>
      split
      · split
        · exact answer_accountsOk (install_accountsOk hs (by simp [hp]) g) _ _ _
        · exact habandon _
      · exact habandon _
    · exact habandon _
  · exact answer_accountsOk hs _ _ _

/-- A state with empty accounts, VACANT entries and an IDLE engine meets the invariant (R57). -/
theorem emptyAccounts_accountsOk {s : State} (ha : s.accounts = Vector.replicate 4 RouteAccount.empty)
    (ht : s.terminals = Vector.replicate 64 Terminal.vacant) (he : s.engine = .idle) : s.AccountsOk := by
  have hacc : ∀ r, s.account r = RouteAccount.empty := fun r => by rw [State.account, ha, Vec.get_replicate]
  have hterm : ∀ n, s.term n = Terminal.vacant := fun n => by rw [State.term, ht, Vec.get_replicate]
  refine ⟨fun r => ?_, fun r => ?_, fun n => ?_, fun k w hb => ?_⟩
  · rw [hacc, he]
    exact Nat.le_refl 0
  · rw [hacc]
    exact Totals.zero_ok
  · rw [hterm]
    exact Totals.zero_ok
  · rw [he] at hb
    cases hb

theorem eraseAct_accountsOk (l : LinkId) (corr : Byte) (s : State) : (eraseAct l corr s).AccountsOk :=
  emptyAccounts_accountsOk rfl rfl rfl

/-! ### Events of the links, the keys and the clock -/

/-- Discarding the answer of the wrap in flight leaves what it owes (R72). -/
theorem Engine.discard_busy {e : Engine} {i : LaneNo} {k : ReservationKept} {w : ReservationWork}
    (h : e.discard i = .busy k w) : ∃ w', e = .busy k w' ∧ w'.offline = w.offline ∧ w'.amount = w.amount := by
  cases e with
  | idle => cases h
  | cut k' => cases h
  | busy k' w' =>
    simp only [Engine.discard] at h
    split at h
    · cases h
      exact ⟨w', rfl, rfl, rfl⟩
    · cases h
      exact ⟨_, rfl, rfl, rfl⟩

theorem resetLink_accountsKept (s : State) (l : LinkId) (rx : Receiver) : AccountsKept s (s.resetLink l rx) := by
  cases l with
  | lane i => exact ⟨fun _ => ⟨rfl, rfl, rfl⟩, fun _ => Or.inl rfl, fun _ _ he => ⟨Engine.discard_busy he, id⟩⟩
  | dispatch => exact .of_eq rfl rfl rfl id
  | service => exact .of_eq rfl rfl rfl abandoned_running

theorem finishLoad_accountsKept (s : State) (f : FamilyNo) (w : LoadWork) (root : Root) (check : BitVec 24) :
    AccountsKept s (s.finishLoad f w root check) := by
  unfold State.finishLoad
  dsimp only
  split <;> exact .of_eq rfl rfl rfl id

theorem rollTurn_accountsKept (s : State) (f : FamilyNo) : AccountsKept s (s.rollTurn f) := by
  unfold State.rollTurn
  dsimp only
  repeat' split
  all_goals exact .of_eq rfl rfl rfl id

section

variable {s : State} (hs : s.AccountsOk)
include hs

theorem execLinkReset_accountsOk (l : LinkId) (corr : Byte) (p : List Byte) :
    ∃ t, execLinkReset l corr p s = .next t ∧ t.AccountsOk := by
  refine ⟨_, rfl, ?_⟩
  split
  · split
    · rcases frameArrives_keeps State.AccountsOk hs (fun b k hb => setLink_accountsOk hb l k) (0x0F#8 :: corr :: p) with
        ⟨t, he, ht⟩ | ⟨t, he, ht⟩ <;> rw [he] <;> exact ht
    · exact answer_accountsOk (hs.kept (resetLink_accountsKept s l .hunting)) _ _ _
  · exact hs

theorem execFrameBad_accountsOk (l : LinkId) (chars : List LineChar) :
    ∃ t, execFrameBad l chars s = .next t ∧ t.AccountsOk := by
  refine ⟨_, rfl, ?_⟩
  split
  · split
    · exact setLink_accountsOk hs l _
    · exact setLink_accountsOk hs l _
    · exact hs
  · exact hs

theorem execLineBreak_accountsOk (l : LinkId) : ∃ t, execLineBreak l s = .next t ∧ t.AccountsOk := by
  refine ⟨_, rfl, ?_⟩
  have hlow : (s.setLink l { s.link l with low := true }).AccountsOk := setLink_accountsOk hs l _
  dsimp only
  split
  · exact hlow.kept (resetLink_accountsKept _ l .inBreak)
  · exact hlow

theorem execUnknownKind_accountsOk (l : LinkId) (corr kind : Byte) (p : List Byte) :
    ∃ t, execUnknownKind l corr kind p s = .next t ∧ t.AccountsOk := by
  refine ⟨_, rfl, ?_⟩
  split
  · exact hs
  · rcases frameArrives_keeps State.AccountsOk hs (fun b k hb => setLink_accountsOk hb l k) (kind :: corr :: p) with
      ⟨t, he, ht⟩ | ⟨t, he, ht⟩ <;> rw [he]
    · exact ht
    · exact answer_accountsOk ht _ _ _

theorem execLoadCompletion_accountsOk (f : FamilyNo) : ∃ t, execLoadCompletion f s = .next t ∧ t.AccountsOk := by
  refine ⟨_, rfl, ?_⟩
  split
  · split
    · exact hs.kept (finishLoad_accountsKept _ _ _ _ _)
    · exact hs
  · exact hs

theorem execRollCompletion_accountsOk (f : FamilyNo) : ∃ t, execRollCompletion f s = .next t ∧ t.AccountsOk := by
  refine ⟨_, rfl, hs.kept ?_⟩
  split
  · split <;> exact .of_eq rfl rfl rfl id
  · exact .refl s

theorem execStreamOffer_accountsOk (l : LinkId) : ∃ t, execStreamOffer l s = .next t ∧ t.AccountsOk := by
  refine ⟨_, rfl, ?_⟩
  split
  · exact hs.kept (nextMessage_accountsKept s l)
  · exact hs

theorem execTransmitComplete_accountsOk (l : LinkId) : ∃ t, execTransmitComplete l s = .next t ∧ t.AccountsOk := by
  refine ⟨_, rfl, ?_⟩
  split
  · exact (setLink_accountsOk hs l _).kept (nextMessage_accountsKept _ l)
  · exact hs

theorem execAckTimerExpiry_accountsOk (r : RouteNo) : ∃ t, execAckTimerExpiry r s = .next t ∧ t.AccountsOk := by
  refine ⟨_, rfl, ?_⟩
  split
  · exact (hs.kept (takeDown_accountsKept s r .timeout .timeout)).kept (.of_eq rfl rfl rfl id)
  · exact hs

theorem execTick_accountsOk : ∃ t, execTick s = .next t ∧ t.AccountsOk := by
  refine ⟨_, rfl, hs.kept ?_⟩
  dsimp only
  split <;> exact .of_eq rfl rfl rfl id

theorem execNearWarning_accountsOk : ∃ t, execNearWarning s = .next t ∧ t.AccountsOk := by
  refine ⟨_, rfl, hs.kept ?_⟩
  split <;> exact .of_eq rfl rfl rfl id

theorem execCutoverMatch_accountsOk : ∃ t, execCutoverMatch s = .next t ∧ t.AccountsOk := by
  refine ⟨_, rfl, hs.kept ?_⟩
  repeat' split
  all_goals exact .of_eq rfl rfl rfl id

theorem execCutoverClosingStart_accountsOk : ∃ t, execCutoverClosingStart s = .next t ∧ t.AccountsOk := by
  refine ⟨_, rfl, hs.kept ?_⟩
  split <;> exact .of_eq rfl rfl rfl id

theorem execCutoverRouteClose_accountsOk : ∃ t, execCutoverRouteClose s = .next t ∧ t.AccountsOk := by
  refine ⟨_, rfl, ?_⟩
  split
  · split
    · next r _ => exact (askClose_accountsOk hs r).kept (.of_eq rfl rfl rfl id)
    · exact hs.kept (.of_eq rfl rfl rfl id)
  · exact hs

theorem execCutoverFamilyRoll_accountsOk : ∃ t, execCutoverFamilyRoll s = .next t ∧ t.AccountsOk := by
  refine ⟨_, rfl, ?_⟩
  split
  · split
    · split
      · exact hs
      · exact hs.kept (rollTurn_accountsKept s _)
    · exact hs
  · exact hs

theorem execDeferredClose_accountsOk (r : RouteNo) : ∃ t, execDeferredClose r s = .next t ∧ t.AccountsOk := by
  refine ⟨_, rfl, ?_⟩
  split
  · exact settleDeferred_accountsOk hs r
  · exact hs

end

/-! ### Supply and retention (R57, R94, R113, R171 to R173) -/

/-- The invariant with an IDLE engine, under which a close may be performed on any route: what the warm restore keeps. -/
structure State.AccountsIdle (s : State) : Prop where
  ok   : s.AccountsOk
  idle : s.engine = .idle

theorem State.AccountsIdle.kept {s t : State} (h : s.AccountsIdle) (k : AccountsKept s t) (he : t.engine = s.engine) :
    t.AccountsIdle :=
  ⟨h.ok.kept k, he.trans h.idle⟩

theorem settleWaiting_accountsIdle {s : State} (h : s.AccountsIdle) (r : RouteNo) : (s.settleWaiting r).AccountsIdle := by
  have hfree : s.engine.servesRoute r = false := by rw [h.idle]; rfl
  rcases settleWaiting_cases s r with e | ⟨p, -, -, e⟩ <;> rw [e]
  · exact h
  · exact ⟨performClose_accountsOk h.ok hfree _, h.idle⟩

theorem undoFamily_accountsKept (s : State) (f : FamilyNo) : AccountsKept s (s.undoFamily f) := by
  unfold State.undoFamily
  dsimp only
  split <;> exact .of_eq rfl rfl rfl id

theorem rollWhole_accountsKept (s : State) (f : FamilyNo) : AccountsKept s (s.rollWhole f) := by
  unfold State.rollWhole
  dsimp only
  repeat' split
  all_goals exact .of_eq rfl rfl rfl id

theorem resumeClosing_accountsOk {s : State} (hs : s.AccountsOk) : s.resumeClosing.AccountsOk := by
  unfold State.resumeClosing
  split
  · exact foldl_keeps State.AccountsOk _ (fun _ r h => askClose_accountsOk h r) _ _ hs
  · exact hs

theorem resumeRolling_accountsOk {s : State} (hs : s.AccountsOk) : s.resumeRolling.AccountsOk := by
  unfold State.resumeRolling
  split
  · exact foldl_keeps State.AccountsOk _ (fun b f h => h.kept (rollWhole_accountsKept b f)) _ _ hs
  · exact hs

theorem resume_accountsOk {s : State} (hs : s.AccountsOk) : s.resume.AccountsOk := by
  unfold State.resume
  split
  · exact hs
  · exact (resumeRolling_accountsOk hs).kept (.of_eq rfl rfl rfl id)
  · exact (resumeRolling_accountsOk (resumeClosing_accountsOk hs)).kept (.of_eq rfl rfl rfl id)

/-- The warm restore, stage by stage: the wrap in flight is abandoned and adds nothing, closes due are performed with no
wrap in flight, the resumed procedure asks for closes as ever (R94, R113, R147, R172). -/
theorem warmRestore_accountsOk {s : State} (hs : s.AccountsOk) (straps : BitVec 6) : (s.warmRestore straps).AccountsOk := by
  have hstart : (restoreStart s straps).AccountsIdle :=
    ⟨hs.kept (.of_not_busy rfl rfl fun k w he => by cases he), rfl⟩
  rw [warmRestore_eq]
  have hrewound : (rewindEach (restoreStart s straps) (List.finRange 4)).AccountsIdle :=
    foldl_keeps State.AccountsIdle _ (fun b r h => h.kept (rewind_accountsKept b r) rfl) _ _ hstart
  have hsettled : (rewindEach (restoreStart s straps) (List.finRange 4)).settleAll.AccountsIdle :=
    foldl_keeps State.AccountsIdle _ (fun _ r h => settleWaiting_accountsIdle h r) _ _ hrewound
  have hundone : (rewindEach (restoreStart s straps) (List.finRange 4)).settleAll.undoAll.AccountsOk :=
    foldl_keeps State.AccountsOk _ (fun b f h => h.kept (undoFamily_accountsKept b f)) _ _ hsettled.ok
  generalize (rewindEach (restoreStart s straps) (List.finRange 4)).settleAll.undoAll = u at hundone ⊢
  have hdispatch : u.restoreDispatch.AccountsOk := hundone.kept (.of_eq rfl rfl rfl id)
  exact resume_accountsOk (hdispatch.kept (releaseAll_accountsKept _))

theorem execWarmRestore_accountsOk {s : State} (hs : s.AccountsOk) (straps : BitVec 6) :
    ∃ t, execWarmRestore straps s = .next t ∧ t.AccountsOk := by
  refine ⟨_, rfl, ?_⟩
  split
  · exact warmRestore_accountsOk hs straps
  · exact hs

theorem execStoreLost_accountsOk {s : State} (hs : s.AccountsOk) (straps : BitVec 6) :
    ∃ t, execStoreLost straps s = .next t ∧ t.AccountsOk := by
  refine ⟨_, rfl, ?_⟩
  split
  · exact emptyAccounts_accountsOk rfl rfl rfl
  · exact hs

theorem execResetLine_accountsOk {s : State} (hs : s.AccountsOk) : ∃ t, execResetLine s = .next t ∧ t.AccountsOk := by
  refine ⟨_, rfl, hs.kept ?_⟩
  split <;> exact .of_eq rfl rfl rfl id

theorem execPowerLoss_accountsOk {s : State} (hs : s.AccountsOk) : ∃ t, execPowerLoss s = .next t ∧ t.AccountsOk := by
  refine ⟨_, rfl, ?_⟩
  split
  · exact hs
  · exact hs.kept (.of_not_busy rfl rfl (lapse_not_busy s.engine))

/-! ### Every step -/

section

variable {l : LinkId} {corr : Byte} {p : List Byte} {s : State} (hs : s.AccountsOk)
include hs

/-- What the part does with a request before its own act keeps the invariant; so the request does where its act does. -/
theorem request_accountsOk {α : Type} {kind : Byte} {ring : Nat} {parse : List Byte → Option α} {spoil : State → State}
    {act : α → State → State} (hspoil : ∀ b, AccountsKept b (spoil b))
    (hact : ∀ a b, b.AccountsOk → (act a b).AccountsOk) : (request kind ring parse spoil l corr p act s).AccountsOk :=
  request_keeps State.AccountsOk hs (fun h => setLink_accountsOk h l _) (fun h => setLink_accountsOk h l _)
    (fun _ h _ => setLink_accountsOk h l _) (fun _ _ h _ => answer_accountsOk h _ _ _)
    (fun b h _ => answer_accountsOk (h.kept (hspoil b)) _ _ _) (fun a b _ _ h _ _ _ => hact a b h)

/-- A request of a partner link or the service port that spoils nothing. -/
theorem plainRequest_accountsOk {α : Type} {kind : Byte} {ring : Nat} {parse : List Byte → Option α}
    {act : α → State → State} (hact : ∀ a b, b.AccountsOk → (act a b).AccountsOk) :
    (request kind ring parse id l corr p act s).AccountsOk :=
  request_accountsOk hs AccountsKept.refl hact

theorem laneRequest_accountsOk {kind : Byte} {act : LaneNo → State → State} (hact : ∀ i b, AccountsKept b (act i b)) :
    (laneRequest kind l corr p act s).AccountsOk :=
  laneRequest_keeps State.AccountsOk hs (fun h => setLink_accountsOk h l _) (fun h => setLink_accountsOk h l _)
    (fun _ h _ => setLink_accountsOk h l _) (fun _ _ h _ => answer_accountsOk h _ _ _)
    (fun i b _ h _ _ _ => h.kept (hact i b))

theorem onRoute_accountsOk {b : Byte} {act : RouteNo → RouteConfig → State → State}
    (hact : ∀ r c, (act r c s).AccountsOk) : (onRoute l corr b act s).AccountsOk :=
  onRoute_keeps State.AccountsOk (fun code => answer_accountsOk hs l corr code) fun r c _ _ => hact r c

theorem routeCommand_accountsOk {kind : Byte} {act : RouteNo → RouteConfig → State → State}
    (hact : ∀ r c b, b.AccountsOk → (act r c b).AccountsOk) : (routeCommand kind l corr p act s).AccountsOk :=
  plainRequest_accountsOk hs fun _ b hb => onRoute_accountsOk hb fun r c => hact r c b hb

theorem onTerminal_accountsOk {α : Type} {b : Byte} {fields : Option α} {act : TerminalNo → α → State → State}
    (hact : ∀ t a, (act t a s).AccountsOk) : (onTerminal l corr b fields act s).AccountsOk :=
  onTerminal_keeps State.AccountsOk (fun code => answer_accountsOk hs l corr code) fun t a _ => hact t a

theorem terminalCommand_accountsOk {kind : Byte} {act : TerminalNo → State → State}
    (hact : ∀ t b, b.AccountsOk → (act t b).AccountsOk) : (terminalCommand kind l corr p act s).AccountsOk :=
  plainRequest_accountsOk hs fun _ b hb => onTerminal_accountsOk hb fun t _ => hact t b hb

end

/-- Every command answers next and keeps sums and offline acceptance within their limits. -/
theorem exec_accountsOk (c : Instr) {s : State} (hs : s.AccountsOk) : ∃ t, exec c s = .next t ∧ t.AccountsOk := by
  cases c with
  | auth l corr p =>
    exact ⟨_, rfl, laneRequest_accountsOk hs fun i b => wrapRequestAct_accountsKept corr b .auth i p⟩
  | refund l corr p =>
    exact ⟨_, rfl, laneRequest_accountsOk hs fun i b => wrapRequestAct_accountsKept corr b .refund i p⟩
  | reversal l corr p =>
    exact ⟨_, rfl, laneRequest_accountsOk hs fun i b => wrapRequestAct_accountsKept corr b .reversal i p⟩
  | laneStatus l corr p => exact ⟨_, rfl, laneRequest_accountsOk hs fun _ _ => .of_eq rfl rfl rfl id⟩
  | linkReset l corr p => exact execLinkReset_accountsOk hs l corr p
  | frameBad l chars => exact execFrameBad_accountsOk hs l chars
  | lineBreak l => exact execLineBreak_accountsOk hs l
  | lineBreakEnd l => exact ⟨_, rfl, setLink_accountsOk hs l _⟩
  | grant => exact execGrant_accountsOk hs
  | completion => exact execCompletion_accountsOk hs
  | enrol l corr p =>
    exact ⟨_, rfl, plainRequest_accountsOk hs fun _ _ hb =>
      onTerminal_accountsOk hb fun t a => enrolAct_accountsOk hb l corr t a⟩
  | holdTerminal l corr p =>
    exact ⟨_, rfl, terminalCommand_accountsOk hs fun t _ hb => holdTerminalAct_accountsOk hb l corr t⟩
  | releaseTerminal l corr p =>
    exact ⟨_, rfl, terminalCommand_accountsOk hs fun t _ hb => releaseTerminalAct_accountsOk hb l corr t⟩
  | move l corr p =>
    exact ⟨_, rfl, plainRequest_accountsOk hs fun _ _ hb =>
      onTerminal_accountsOk hb fun t a => moveAct_accountsOk hb l corr t a⟩
  | retire l corr p => exact ⟨_, rfl, terminalCommand_accountsOk hs fun t _ hb => retireAct_accountsOk hb l corr t⟩
  | setFloor l corr p =>
    exact ⟨_, rfl, plainRequest_accountsOk hs fun _ _ hb =>
      onTerminal_accountsOk hb fun t a => setFloorAct_accountsOk hb l corr t a⟩
  | terminalQuery l corr p =>
    exact ⟨_, rfl, plainRequest_accountsOk hs fun a b hb => hb.kept (terminalQueryAct_accountsKept l corr a b)⟩
  | keyLoad l corr p =>
    exact ⟨_, rfl, plainRequest_accountsOk hs fun a b hb => hb.kept (keyLoadAct_accountsKept l corr b a)⟩
  | loadCompletion f => exact execLoadCompletion_accountsOk hs f
  | rollFamily l corr p =>
    exact ⟨_, rfl, plainRequest_accountsOk hs fun a b hb => hb.kept (rollFamilyAct_accountsKept l corr a b)⟩
  | rollCompletion f => exact execRollCompletion_accountsOk hs f
  | retireFamily l corr p =>
    exact ⟨_, rfl, plainRequest_accountsOk hs fun a b hb => hb.kept (retireFamilyAct_accountsKept l corr a b)⟩
  | familyQuery l corr p =>
    exact ⟨_, rfl, plainRequest_accountsOk hs fun a b hb => hb.kept (familyQueryAct_accountsKept l corr a b)⟩
  | setCeiling l corr p =>
    exact ⟨_, rfl, plainRequest_accountsOk hs fun a b hb => hb.kept (setCeilingAct_accountsKept l corr a.1 b a.2)⟩
  | holdLane l corr p =>
    exact ⟨_, rfl, plainRequest_accountsOk hs fun a b hb => hb.kept (laneHoldAct_accountsKept l corr a b true)⟩
  | releaseLane l corr p =>
    exact ⟨_, rfl, plainRequest_accountsOk hs fun a b hb => hb.kept (laneHoldAct_accountsKept l corr a b false)⟩
  | routeUp l corr p =>
    exact ⟨_, rfl, routeCommand_accountsOk hs fun r c b hb => hb.kept (routeUpAct_accountsKept l corr b r c)⟩
  | routeDown l corr p =>
    exact ⟨_, rfl, routeCommand_accountsOk hs fun r c _ hb => routeDownAct_accountsOk hb l corr r c⟩
  | pullOne l corr p => exact ⟨_, rfl, routeCommand_accountsOk hs fun r c _ hb => pullOneAct_accountsOk hb l corr r c⟩
  | pullBlock l corr p =>
    exact ⟨_, rfl, plainRequest_accountsOk hs fun a _ hb =>
      onRoute_accountsOk hb fun r c => pullBlockAct_accountsOk hb l corr r c a.2⟩
  | streamOpen l corr p =>
    exact ⟨_, rfl, plainRequest_accountsOk hs fun a b hb =>
      onRoute_accountsOk hb fun r c => hb.kept (streamOpenAct_accountsKept l corr b a.2.1 a.2.2 r c)⟩
  | streamClose l corr p =>
    exact ⟨_, rfl, routeCommand_accountsOk hs fun _ _ _ hb => hb.kept (.of_eq rfl rfl rfl id)⟩
  | streamOffer l => exact execStreamOffer_accountsOk hs l
  | transmitComplete l => exact execTransmitComplete_accountsOk hs l
  | ackOne l corr p =>
    exact ⟨_, rfl, plainRequest_accountsOk hs fun a _ hb =>
      onRoute_accountsOk hb fun r c => ackOneAct_accountsOk hb l corr r c a.2.1 a.2.2⟩
  | ackOldest l corr p =>
    exact ⟨_, rfl, routeCommand_accountsOk hs fun r c _ hb => ackOldestAct_accountsOk hb l corr r c⟩
  | ackThrough l corr p =>
    exact ⟨_, rfl, plainRequest_accountsOk hs fun a _ hb =>
      onRoute_accountsOk hb fun r c => ackThroughAct_accountsOk hb l corr r c a.2.1 a.2.2⟩
  | ackTimerExpiry r => exact execAckTimerExpiry_accountsOk hs r
  | tick => exact execTick_accountsOk hs
  | nearWarning => exact execNearWarning_accountsOk hs
  | cutoverMatch => exact execCutoverMatch_accountsOk hs
  | cutoverClosingStart => exact execCutoverClosingStart_accountsOk hs
  | cutoverRouteClose => exact execCutoverRouteClose_accountsOk hs
  | cutoverFamilyRoll => exact execCutoverFamilyRoll_accountsOk hs
  | setClock l corr p =>
    exact ⟨_, rfl, plainRequest_accountsOk hs fun a b hb => hb.kept (setClockAct_accountsKept l corr b a)⟩
  | setCutover l corr p =>
    exact ⟨_, rfl, plainRequest_accountsOk hs fun a b hb => hb.kept (setCutoverAct_accountsKept l corr b a)⟩
  | closeBatch l corr p =>
    exact ⟨_, rfl, plainRequest_accountsOk hs fun a _ hb => closeBatchAct_accountsOk hb l corr a⟩
  | deferredClose r => exact execDeferredClose_accountsOk hs r
  | setupBegin l corr p =>
    exact ⟨_, rfl, request_accountsOk hs abandon_accountsKept fun a _ hb => setupBeginAct_accountsOk hb l corr a⟩
  | routeDefine l corr p =>
    exact ⟨_, rfl, request_accountsOk hs abandon_accountsKept fun a b hb =>
      hb.kept (routeDefineAct_accountsKept l corr a b)⟩
  | setupEnd l corr p =>
    exact ⟨_, rfl, request_accountsOk hs abandon_accountsKept fun _ _ hb => setupEndAct_accountsOk hb l corr⟩
  | statusRead l corr p =>
    exact ⟨_, rfl, plainRequest_accountsOk hs fun _ _ hb => hb.kept (.of_eq rfl rfl rfl id)⟩
  | faultRead l corr p =>
    exact ⟨_, rfl, plainRequest_accountsOk hs fun _ b hb => hb.kept (faultReadAct_accountsKept l corr b)⟩
  | routeQuery l corr p =>
    exact ⟨_, rfl, plainRequest_accountsOk hs fun a b hb => hb.kept (routeQueryAct_accountsKept l corr a b)⟩
  | erase l corr p => exact ⟨_, rfl, plainRequest_accountsOk hs fun _ b _ => eraseAct_accountsOk l corr b⟩
  | warmRestore straps => exact execWarmRestore_accountsOk hs straps
  | storeLost straps => exact execStoreLost_accountsOk hs straps
  | resetLine => exact execResetLine_accountsOk hs
  | powerLoss => exact execPowerLoss_accountsOk hs
  | retentionLoss => exact ⟨_, rfl, hs.kept (.of_eq rfl rfl rfl id)⟩
  | unknownKind l corr kind p => exact execUnknownKind_accountsOk hs l corr kind p

/-- Settles O57: a reservation takes on what check 6 found room for, its completion moves that much into the offline sum, a
close comes only with no wrap of its route in flight; every other operation leaves sums, ceilings and what is owed. -/
theorem stepKeepsAccountsOk : Obligations.StepKeepsAccountsOk := by
  intro s t hs hstep
  unfold step at hstep
  split at hstep
  · cases hstep
    exact hs
  · next c rest _ =>
    have hb : State.AccountsOk { s with pending := rest } := hs.kept (.of_eq rfl rfl rfl id)
    obtain ⟨u, hu, hok⟩ := exec_accountsOk c hb
    rw [hu] at hstep
    cases hstep
    exact hok

end Sys2Proof.Machine
end

section
/-! The amount field and the totals (03_amount_arithmetic_and_totals.md, R41 to R43, R49, R51): what each of their functions
answers, case by case. -/

namespace Sys2Proof.Machine

/-! ### The amount field (R41) -/

/-- The form the amount field must have: a count of 1 to 12 and digits of 0 to 9 (R41). -/
theorem amountValue_ok {count : Nat} {nibbles : List Nat} (h1 : 1 ≤ count) (h12 : count ≤ 12)
    (hd : ∀ x ∈ nibbles.drop (12 - count), x ≤ 9) :
    amountValue count nibbles = some (decimal (nibbles.drop (12 - count))) :=
  if_pos ⟨h1, h12, List.all_eq_true.mpr fun x hx => decide_eq_true (hd x hx)⟩

theorem amountValue_bad {count : Nat} {nibbles : List Nat}
    (h : count = 0 ∨ 12 < count ∨ ∃ x ∈ nibbles.drop (12 - count), 9 < x) : amountValue count nibbles = none := by
  refine if_neg ?_
  rintro ⟨h1, h12, hall⟩
  rcases h with h0 | h13 | ⟨x, hx, h9⟩
  · omega
  · omega
  · have hle : x ≤ 9 := of_decide_eq_true (List.all_eq_true.mp hall x hx)
    omega

/-! ### Normalisation (R42) -/

theorem normalise_extend {v d f : Nat} (h : d ≤ f) (mode : Rounding) : normalise v d f mode = v * 10 ^ (f - d) :=
  if_neg (Nat.not_lt.mpr h)

theorem normalise_down {v d f : Nat} (h : f < d) : normalise v d f .down = v / 10 ^ (d - f) :=
  if_pos h

theorem normalise_halfUp {v d f : Nat} (h : f < d) :
    normalise v d f .halfUp = v / 10 ^ (d - f) + (if 10 ^ (d - f) ≤ 2 * (v % 10 ^ (d - f)) then 1 else 0) := by
  have hdef : normalise v d f .halfUp =
      if 10 ^ (d - f) ≤ 2 * (v % 10 ^ (d - f)) then v / 10 ^ (d - f) + 1 else v / 10 ^ (d - f) := if_pos h
  rw [hdef]
  split <;> rfl

/-! ### The limits (R43) -/

theorem checkedAmount_zero : checkedAmount 0 = .error .amountZero := rfl

theorem checkedAmount_range {a : Nat} (h : Config.maxAmount < a) : checkedAmount a = .error .amountRange := by
  have hne : a ≠ 0 := Nat.ne_zero_of_lt h
  simp [checkedAmount, hne, h]

theorem checkedAmount_ok {a : Nat} (h1 : 1 ≤ a) (h : a ≤ Config.maxAmount) : checkedAmount a = .ok a := by
  simp [checkedAmount, Nat.ne_zero_of_lt h1, Nat.not_lt.mpr h]

/-! ### Check 4 of the grant (R41 to R43, R79) -/

section

variable {count d : Nat} {nibbles : List Nat} {c : RouteConfig}

theorem amountCheck_format (h : amountValue count nibbles = none) :
    amountCheck count nibbles d c = .error .amountFormat := by
  simp [amountCheck, h]

theorem amountCheck_value {v : Nat} (h : amountValue count nibbles = some v) :
    amountCheck count nibbles d c = checkedAmount (normalise v d c.fraction c.rounding) := by
  simp [amountCheck, h]

/-- The amount that R42 gives in its three cases is the normalised one. -/
theorem normalise_eq {v a : Nat} (hext : d ≤ c.fraction → a = v * 10 ^ (c.fraction - d))
    (hdown : c.fraction < d → c.rounding = .down → a = v / 10 ^ (d - c.fraction))
    (hhalf : c.fraction < d → c.rounding = .halfUp → a = v / 10 ^ (d - c.fraction) +
      (if 10 ^ (d - c.fraction) ≤ 2 * (v % 10 ^ (d - c.fraction)) then 1 else 0)) :
    normalise v d c.fraction c.rounding = a := by
  rcases Nat.lt_or_ge c.fraction d with hlt | hge
  · cases hr : c.rounding with
    | halfUp => rw [normalise_halfUp hlt, hhalf hlt hr]
    | down => rw [normalise_down hlt, hdown hlt hr]
  · rw [normalise_extend hge, hext hge]

end

/-! ### Saturation (R51) -/

theorem saturates_iff (sum a : Nat) : saturates sum a = true ↔ Config.maxSum < sum + a := decide_eq_true_iff

/-- Settles O18: the field's form, then the three cases of the normalisation and the three of the limits; the totals by the
kind of completion. -/
theorem amountsAndTotals : Obligations.AmountsAndTotals := by
  refine ⟨fun count nibbles d c => ⟨fun hbad => amountCheck_format (amountValue_bad hbad),
    fun h1 h12 hd a hext hdown hhalf => ?_⟩, fun t a => ⟨rfl, rfl, rfl, rfl, rfl, saturates_iff _ _, saturates_iff _ _,
    saturates_iff _ _, saturates_iff _ _, saturates_iff _ _⟩⟩
  rw [amountCheck_value (amountValue_ok h1 h12 hd), normalise_eq hext hdown hhalf]
  refine ⟨?_, checkedAmount_range, checkedAmount_ok⟩
  rintro rfl
  exact checkedAmount_zero

end Sys2Proof.Machine
end

section
/-! The intake and response queues (04_intake_and_arbitration.md, R59, R71, R72; 09_links_and_message_framing.md, R156):
every step keeps them within their bounds. -/

namespace Sys2Proof.Machine

/-! ### The streams open on a link (R124, R125) -/

/-- A route's stream is open on a link. -/
def RouteDispatch.streamsTo (d : RouteDispatch) (l : LinkId) : Bool :=
  match d.stream with
  | some st => st.link == l
  | none => false

theorem RouteDispatch.streamsTo_closed {d : RouteDispatch} (h : d.stream = none) (l : LinkId) : d.streamsTo l = false := by
  simp [RouteDispatch.streamsTo, h]

theorem RouteDispatch.streamsTo_open {d : RouteDispatch} {st : OpenStream} (h : d.stream = some st) (l : LinkId) :
    d.streamsTo l = (st.link == l) := by
  simp [RouteDispatch.streamsTo, h]

theorem streamsOn_eq (s : State) (l : LinkId) : s.streamsOn l = (List.finRange 4).countP fun r => (s.route r).streamsTo l :=
  rfl

theorem streamsOn_le (s : State) (l : LinkId) : s.streamsOn l ≤ 4 :=
  List.countP_le_length

theorem streamsOn_congr {s t : State} {l : LinkId} (h : ∀ r, (t.route r).streamsTo l = true → (s.route r).streamsTo l = true) :
    t.streamsOn l ≤ s.streamsOn l :=
  List.countP_mono_left fun r _ => h r

/-- Two counts over one list without repetition, of tests that agree but at one entry, differ by that entry's tests. -/
theorem countP_turn {α : Type} [DecidableEq α] {xs : List α} {a : α} {p q : α → Bool} (hd : xs.Nodup) (ha : a ∈ xs)
    (h : ∀ x, x ≠ a → p x = q x) :
    xs.countP p + (if q a then 1 else 0) = xs.countP q + (if p a then 1 else 0) := by
  have hrest : (xs.erase a).countP p = (xs.erase a).countP q :=
    List.countP_congr fun x hx => by rw [h x ((hd.mem_erase_iff).mp hx).1]
  rw [(List.perm_cons_erase ha).countP_eq p, (List.perm_cons_erase ha).countP_eq q, List.countP_cons, List.countP_cons, hrest]
  omega

/-- The dispatch state of one route written: the streams open on a link differ by that route's. -/
theorem streamsOn_turn {s t : State} {r : RouteNo} (h : ∀ q, q ≠ r → t.route q = s.route q) (l : LinkId) :
    t.streamsOn l + (if (s.route r).streamsTo l then 1 else 0) = s.streamsOn l + (if (t.route r).streamsTo l then 1 else 0) :=
  countP_turn (p := fun q => (t.route q).streamsTo l) (q := fun q => (s.route q).streamsTo l) (List.nodup_finRange 4)
    (List.mem_finRange r) fun q hq => by rw [h q hq]

/-! ### What a link bears (R59, R156) -/

/-- What a link's response queue holds and what may yet join it unasked: on a lane an answer to each queued request and to
the wrap in flight, on a partner link a STREAM_END of each open stream. -/
def State.burden (s : State) : LinkId → Nat
  | .lane i => (s.link (.lane i)).queue.length + (s.lane i).queue.length + s.engine.owes i
  | .dispatch => (s.link .dispatch).queue.length + s.streamsOn .dispatch
  | .service => (s.link .service).queue.length + s.streamsOn .service

/-- The bound on what a link bears. -/
def burdenLimit : LinkId → Nat
  | .lane _ => 41
  | .dispatch => 36
  | .service => 36

theorem burden_partner (s : State) {l : LinkId} (h : isPartner l = true) :
    s.burden l = (s.link l).queue.length + s.streamsOn l := by
  cases l with
  | lane i => cases h
  | dispatch => rfl
  | service => rfl

theorem burdenLimit_partner {l : LinkId} (h : isPartner l = true) : burdenLimit l = 36 := by
  cases l with
  | lane i => cases h
  | dispatch => rfl
  | service => rfl

theorem owes_le (e : Engine) (i : LaneNo) : e.owes i ≤ 1 := by
  cases e with
  | idle => exact Nat.zero_le _
  | cut k => exact Nat.zero_le _
  | busy k w =>
    simp only [Engine.owes]
    split <;> omega

theorem owes_not_busy {e : Engine} (h : ∀ k w, e ≠ .busy k w) (i : LaneNo) : e.owes i = 0 := by
  cases e with
  | idle => rfl
  | cut k => rfl
  | busy k w => exact absurd rfl (h k w)

/-- The invariant bounds what each link bears. -/
theorem queuesOk_iff (s : State) : s.QueuesOk ↔
    (∀ i, (s.lane i).queue.length ≤ Config.intakeLimit) ∧ (∀ i q, q ∈ (s.lane i).queue → q.lane = i) ∧
    (∀ r st, (s.route r).stream = some st → isPartner st.link = true) ∧ ∀ l, s.burden l ≤ burdenLimit l := by
  constructor
  · intro h
    refine ⟨h.intake, h.own, h.streams, fun l => ?_⟩
    cases l with
    | lane i => exact h.lanes i
    | dispatch => exact h.partner .dispatch rfl
    | service => exact h.partner .service rfl
  · rintro ⟨hintake, hown, hstreams, hburden⟩
    refine ⟨hintake, hown, fun i => hburden (.lane i), hstreams, fun l hl => ?_⟩
    rw [← burden_partner s hl, ← burdenLimit_partner hl]
    exact hburden l

/-- A link that still takes frames bears less than its bound (R156). -/
theorem State.QueuesOk.burden_lt {s : State} (h : s.QueuesOk) {l : LinkId}
    (hroom : (s.link l).queue.length < Config.responseLimit) : s.burden l < burdenLimit l := by
  have hlimit : Config.responseLimit = 32 := rfl
  cases l with
  | lane i =>
    have hqueued := h.intake i
    have howed := owes_le s.engine i
    simp only [State.burden, burdenLimit, Config.intakeLimit] at *
    omega
  | dispatch =>
    have hopen := streamsOn_le s .dispatch
    simp only [State.burden, burdenLimit]
    omega
  | service =>
    have hopen := streamsOn_le s .service
    simp only [State.burden, burdenLimit]
    omega

/-! ### Steps that add to no queue -/

/-- A step after which no link bears more: requests may have left the intake queues, streams may have been closed, and what
was owed may have been answered. -/
structure QueuesEased (s t : State) : Prop where
  intake  : ∀ i, ((t.lane i).queue).Sublist (s.lane i).queue
  streams : ∀ r st, (t.route r).stream = some st → ∃ st', (s.route r).stream = some st' ∧ st'.link = st.link
  burden  : ∀ l, t.burden l ≤ s.burden l

theorem QueuesEased.refl (s : State) : QueuesEased s s :=
  ⟨fun _ => List.Sublist.refl _, fun _ st h => ⟨st, h, rfl⟩, fun _ => le_refl _⟩

theorem QueuesEased.trans {s t u : State} (h : QueuesEased s t) (k : QueuesEased t u) : QueuesEased s u := by
  refine ⟨fun i => (k.intake i).trans (h.intake i), fun r st hst => ?_, fun l => (k.burden l).trans (h.burden l)⟩
  obtain ⟨st', hst', hl'⟩ := k.streams r st hst
  obtain ⟨st'', hst'', hl''⟩ := h.streams r st' hst'
  exact ⟨st'', hst'', hl''.trans hl'⟩

theorem State.QueuesOk.eased {s t : State} (h : s.QueuesOk) (k : QueuesEased s t) : t.QueuesOk := by
  rw [queuesOk_iff] at h ⊢
  obtain ⟨hintake, hown, hstreams, hburden⟩ := h
  refine ⟨fun i => (k.intake i).length_le.trans (hintake i), fun i q hq => hown i q ((k.intake i).subset hq),
    fun r st hst => ?_, fun l => (k.burden l).trans (hburden l)⟩
  obtain ⟨st', hst', hl⟩ := k.streams r st hst
  rw [← hl]
  exact hstreams r st' hst'

/-- Each part of what the links bear is no more than it was. -/
theorem QueuesEased.of_parts {s t : State} (hlink : ∀ l, (t.link l).queue.length ≤ (s.link l).queue.length)
    (hlane : ∀ i, ((t.lane i).queue).Sublist (s.lane i).queue) (howes : ∀ i, t.engine.owes i ≤ s.engine.owes i)
    (hstream : ∀ r, (t.route r).stream = none ∨ (t.route r).stream = (s.route r).stream) : QueuesEased s t := by
  have hopen : ∀ r st, (t.route r).stream = some st → (s.route r).stream = some st := by
    intro r st hst
    rcases hstream r with hnone | hsame
    · simp [hnone] at hst
    · exact hsame ▸ hst
  have hcount : ∀ l, t.streamsOn l ≤ s.streamsOn l := by
    intro l
    refine streamsOn_congr fun r hr => ?_
    rcases hstream r with hnone | hsame
    · simp [RouteDispatch.streamsTo, hnone] at hr
    · simpa only [RouteDispatch.streamsTo, hsame] using hr
  refine ⟨hlane, fun r st hst => ⟨st, hopen r st hst, rfl⟩, fun l => ?_⟩
  cases l with
  | lane i => exact Nat.add_le_add (Nat.add_le_add (hlink _) (hlane i).length_le) (howes i)
  | dispatch => exact Nat.add_le_add (hlink _) (hcount _)
  | service => exact Nat.add_le_add (hlink _) (hcount _)

/-- The usual case: links, intake queues, wrap in flight and dispatch states are the same. -/
theorem QueuesEased.of_eq {s t : State} (hlinks : t.links = s.links) (hlanes : t.intake.lanes = s.intake.lanes)
    (he : t.engine = s.engine) (hd : t.dispatch = s.dispatch) : QueuesEased s t :=
  .of_parts (fun l => by simp only [State.link, hlinks, le_refl])
    (fun i => by simp only [State.lane, hlanes, List.Sublist.refl]) (fun i => by rw [he])
    (fun r => Or.inr (by simp only [State.route, hd]))

/-- A link written whose queue has not grown. -/
theorem setLink_eased {s : State} {l : LinkId} {k : Link} (h : k.queue.length ≤ (s.link l).queue.length) :
    QueuesEased s (s.setLink l k) := by
  refine .of_parts (fun m => ?_) (fun _ => List.Sublist.refl _) (fun _ => le_refl _) (fun _ => Or.inr rfl)
  by_cases hm : l = m
  · subst hm
    rw [State.link_setLink]
    exact h
  · rw [State.link_setLink_ne s k hm]

/-- A route's dispatch state written whose stream is the one it had, or none. -/
theorem setRoute_eased {s : State} {r : RouteNo} {d : RouteDispatch}
    (h : d.stream = none ∨ d.stream = (s.route r).stream) : QueuesEased s (s.setRoute r d) := by
  refine .of_parts (fun _ => le_refl _) (fun _ => List.Sublist.refl _) (fun _ => le_refl _) (fun q => ?_)
  by_cases hq : r = q
  · subst hq
    rw [State.route_setRoute]
    exact h
  · rw [State.route_setRoute_ne s d hq]
    exact Or.inr rfl

/-- Nothing in a queue, nothing owed, no stream. -/
theorem emptied_eased (s : State) {t : State} (hlink : ∀ l, (t.link l).queue = []) (hlane : ∀ i, (t.lane i).queue = [])
    (he : ∀ k w, t.engine ≠ .busy k w) (hstream : ∀ r, (t.route r).stream = none) : QueuesEased s t :=
  .of_parts (fun l => by simp [hlink]) (fun i => by simp [hlane]) (fun i => by simp [owes_not_busy he])
    (fun r => Or.inl (hstream r))

/-! ### Steps that add one entry to a response queue -/

theorem enqueue_burden_same (s : State) (l : LinkId) (e : QueueEntry) : (s.enqueue l e).burden l = s.burden l + 1 := by
  have hlink : (s.enqueue l e).link l = (s.link l).push e := Vec.get_put_same _ _ _
  have hlane : ∀ i, (s.enqueue l e).lane i = s.lane i := fun _ => rfl
  have hcount : ∀ m, (s.enqueue l e).streamsOn m = s.streamsOn m := fun _ => rfl
  cases l <;> simp only [State.burden, hlink, hlane, hcount, Link.push, State.enqueue_engine, List.length_append,
    List.length_singleton] <;> omega

theorem enqueue_burden_ne (s : State) {l m : LinkId} (e : QueueEntry) (h : l ≠ m) : (s.enqueue l e).burden m = s.burden m := by
  have hlink : (s.enqueue l e).link m = s.link m := Vec.get_put_ne _ _ fun hi => h (linkIndex_injective hi)
  have hlane : ∀ i, (s.enqueue l e).lane i = s.lane i := fun _ => rfl
  have hcount : ∀ k, (s.enqueue l e).streamsOn k = s.streamsOn k := fun _ => rfl
  cases m <;> simp only [State.burden, hlink, hlane, hcount, State.enqueue_engine]

/-- One more entry on a link that bears less than its bound. -/
theorem enqueue_queuesOk {s : State} (h : s.QueuesOk) {l : LinkId} (hl : s.burden l < burdenLimit l) (e : QueueEntry) :
    (s.enqueue l e).QueuesOk := by
  rw [queuesOk_iff] at h ⊢
  obtain ⟨hintake, hown, hstreams, hburden⟩ := h
  refine ⟨hintake, hown, hstreams, fun m => ?_⟩
  by_cases hm : l = m
  · subst hm
    rw [enqueue_burden_same]
    exact hl
  · rw [enqueue_burden_ne s e hm]
    exact hburden m

/-- A step that adds to no queue but one entry to a link's response queue. -/
def Answered (l : LinkId) (s t : State) : Prop := ∃ b e, QueuesEased s b ∧ t = b.enqueue l e

theorem QueuesEased.answered {s b : State} {l : LinkId} {corr : Byte} {code : Code} {reply : Reply} (h : QueuesEased s b) :
    Answered l s (b.answer l corr code reply) :=
  ⟨b, _, h, rfl⟩

theorem answer_answered (s : State) (l : LinkId) (corr : Byte) (code : Code) (reply : Reply := .bare) :
    Answered l s (s.answer l corr code reply) :=
  (QueuesEased.refl s).answered

/-- The usual case: the answer is given where links, intake queues, wrap in flight and dispatch states are the same. -/
theorem Answered.of_eq {l : LinkId} {s b : State} {e : QueueEntry} (hlinks : b.links = s.links)
    (hlanes : b.intake.lanes = s.intake.lanes) (he : b.engine = s.engine) (hd : b.dispatch = s.dispatch) :
    Answered l s (b.enqueue l e) :=
  ⟨b, e, .of_eq hlinks hlanes he hd, rfl⟩

theorem State.QueuesOk.answered {s t : State} {l : LinkId} (h : s.QueuesOk) (hl : s.burden l < burdenLimit l)
    (k : Answered l s t) : t.QueuesOk := by
  obtain ⟨b, e, hb, rfl⟩ := k
  exact enqueue_queuesOk (h.eased hb) ((hb.burden l).trans_lt hl) e

/-- An answer that takes the place of what a link bore leaves it bearing no more. -/
theorem Answered.eased {l : LinkId} {s p t : State} (k : Answered l p t) (h : QueuesEased s p) (hl : p.burden l < s.burden l) :
    QueuesEased s t := by
  obtain ⟨b, e, hb, rfl⟩ := k
  obtain ⟨hintake, hstreams, hburden⟩ := h.trans hb
  refine ⟨hintake, hstreams, fun m => ?_⟩
  by_cases hm : l = m
  · subst hm
    rw [enqueue_burden_same]
    exact (hb.burden l).trans_lt hl
  · rw [enqueue_burden_ne b e hm]
    exact hburden m

/-! ### The arrival of frames (R151, R153, R156) -/

section

variable {l : LinkId} {corr : Byte} {s : State} (hs : s.QueuesOk)
include hs

theorem freeReceiver_queuesOk (l : LinkId) : (s.freeReceiver l).QueuesOk :=
  hs.eased (setLink_eased (le_refl _))

/-- A bad frame is answered where the response queue is not full, whatever becomes of the receiver (R153, R156). -/
theorem reportBad_queuesOk (l : LinkId) (rx : Receiver) :
    (s.setLink l { (s.link l).reportBad with receiver := rx }).QueuesOk := by
  by_cases hroom : (s.link l).queue.length < Config.responseLimit
  · have hpush : (s.link l).reportBad = (s.link l).push (.run frameBadAnswer []) := by
      simp [Link.reportBad, Link.full, hroom]
    have hsent : (s.send l frameBadAnswer).QueuesOk := enqueue_queuesOk hs (hs.burden_lt hroom) _
    have hheard : s.setLink l { (s.link l).reportBad with receiver := rx } =
        (s.send l frameBadAnswer).setLink l { (s.send l frameBadAnswer).link l with receiver := rx } := by
      rw [hpush]
      simp [State.setLink, State.send, State.link]
    rw [hheard]
    exact hsent.eased (setLink_eased (le_refl _))
  · have hkeep : (s.link l).reportBad = s.link l := by simp [Link.reportBad, Link.full, Nat.not_lt.mp hroom]
    rw [hkeep]
    exact hs.eased (setLink_eased (le_refl _))

theorem cutFrame_queuesOk (l : LinkId) : (s.cutFrame l).QueuesOk := reportBad_queuesOk hs l .hunting

theorem answer_queuesOk (hroom : (s.link l).queue.length < Config.responseLimit) (corr : Byte) (code : Code)
    (reply : Reply := .bare) : (s.answer l corr code reply).QueuesOk :=
  enqueue_queuesOk hs (hs.burden_lt hroom) _

/-- What the part does with a request before its own act keeps the bounds; so the request does where its act does. -/
theorem request_queuesOk {α : Type} {kind : Byte} {ring : Nat} {parse : List Byte → Option α} {spoil : State → State}
    {p : List Byte} {act : α → State → State} (hspoil : ∀ b, QueuesEased b (spoil b))
    (hact : ∀ a b, linkRing l ≤ ring → b.QueuesOk → (b.link l).queue.length < Config.responseLimit → (act a b).QueuesOk) :
    (request kind ring parse spoil l corr p act s).QueuesOk :=
  request_keeps State.QueuesOk hs (fun h => freeReceiver_queuesOk h l) (fun h => cutFrame_queuesOk h l)
    (fun _ h hroom => enqueue_queuesOk h (h.burden_lt hroom) _) (fun _ _ h hroom => answer_queuesOk h hroom corr _)
    (fun b h hroom => h.answered (h.burden_lt hroom) (hspoil b).answered)
    (fun a b _ hring h _ _ hroom => hact a b hring h hroom)

/-- A request whose act adds its answer and nothing else. -/
theorem request_answered {α : Type} {kind : Byte} {ring : Nat} {parse : List Byte → Option α} {spoil : State → State}
    {p : List Byte} {act : α → State → State} (hspoil : ∀ b, QueuesEased b (spoil b))
    (hact : ∀ a b, b.QueuesOk → Answered l b (act a b)) : (request kind ring parse spoil l corr p act s).QueuesOk :=
  request_queuesOk hs hspoil fun a b _ h hroom => h.answered (h.burden_lt hroom) (hact a b h)

theorem laneRequest_queuesOk {kind : Byte} {p : List Byte} {act : LaneNo → State → State}
    (hact : ∀ i b, l = .lane i → b.QueuesOk → (b.link l).queue.length < Config.responseLimit → (act i b).QueuesOk) :
    (laneRequest kind l corr p act s).QueuesOk :=
  laneRequest_keeps State.QueuesOk hs (fun h => freeReceiver_queuesOk h l) (fun h => cutFrame_queuesOk h l)
    (fun _ h hroom => enqueue_queuesOk h (h.burden_lt hroom) _) (fun _ _ h hroom => answer_queuesOk h hroom corr _)
    (fun i b hl h _ _ hroom => hact i b hl h hroom)

/-- A frame that arrives keeps the bounds, and a link that takes it has room for its answer (R156). -/
theorem frameArrives_queuesOk (l : LinkId) (body : List Byte) :
    (∃ t, frameArrives l body s = .gone t ∧ t.QueuesOk) ∨
    (∃ t, frameArrives l body s = .taken t ∧ t.QueuesOk ∧ (t.link l).queue.length < Config.responseLimit) := by
  have hends : ∀ b, EndsFrom s l b → b.QueuesOk := by
    rintro b (rfl | rfl | rfl)
    · exact hs
    · exact freeReceiver_queuesOk hs l
    · exact cutFrame_queuesOk hs l
  rcases frameArrives_cases l body s with ⟨t, he, hb | ⟨b, hb, rfl, hroom⟩⟩ | ⟨t, he, hb, -, -, hroom, -⟩
  · exact Or.inl ⟨t, he, hends t hb⟩
  · exact Or.inl ⟨_, he, enqueue_queuesOk (hends b hb) ((hends b hb).burden_lt hroom) _⟩
  · exact Or.inr ⟨t, he, hends t hb, hroom⟩

end

/-! ### The checks of commands answer where they do not let through -/

section

variable {l : LinkId} {corr b : Byte} {s : State}

theorem onRoute_answered {act : RouteNo → RouteConfig → State → State} (hact : ∀ r c, Answered l s (act r c s)) :
    Answered l s (onRoute l corr b act s) :=
  onRoute_keeps (Answered l s) (fun code => answer_answered s l corr code) fun r c _ _ => hact r c

theorem onTerminal_answered {α : Type} {fields : Option α} {act : TerminalNo → α → State → State}
    (hact : ∀ t a, Answered l s (act t a s)) : Answered l s (onTerminal l corr b fields act s) :=
  onTerminal_keeps (Answered l s) (fun code => answer_answered s l corr code) fun t a _ => hact t a

theorem onEnrolled_answered {t : TerminalNo} {act : State → State} (hact : Answered l s (act s)) :
    Answered l s (onEnrolled l corr t act s) :=
  onEnrolled_keeps (Answered l s) (fun code => answer_answered s l corr code) hact

theorem routeCommand_answered {kind : Byte} {p : List Byte} {act : RouteNo → RouteConfig → State → State} (hs : s.QueuesOk)
    (hact : ∀ r c b, b.QueuesOk → Answered l b (act r c b)) : (routeCommand kind l corr p act s).QueuesOk :=
  request_answered hs QueuesEased.refl fun _ b hb => onRoute_answered fun r c => hact r c b hb

theorem terminalCommand_answered {kind : Byte} {p : List Byte} {act : TerminalNo → State → State} (hs : s.QueuesOk)
    (hact : ∀ t b, Answered l b (act t b)) : (terminalCommand kind l corr p act s).QueuesOk :=
  request_answered hs QueuesEased.refl fun _ b _ => onTerminal_answered fun t _ => hact t b

end

/-! ### Closes, offers and acknowledgements (R109, R111, R121, R130) -/

theorem requestClose_eased (s : State) (r : RouteNo) (why : CloseReason) : QueuesEased s (s.requestClose r why).1 := by
  rcases requestClose_cases s r why with ⟨p, -, e⟩ | ⟨-, -, e⟩ | ⟨-, -, -, e⟩ | ⟨-, -, -, e⟩ <;> rw [e]
  · exact .refl s
  · exact .of_eq rfl rfl rfl rfl
  · exact .of_eq rfl rfl rfl rfl
  · exact .of_eq rfl rfl rfl rfl

theorem askClose_eased (s : State) (r : RouteNo) : QueuesEased s (s.askClose r) := by
  unfold State.askClose
  split
  · exact requestClose_eased s r _
  · exact .refl s

theorem settleDeferred_eased (s : State) (r : RouteNo) : QueuesEased s (s.settleDeferred r) := by
  rcases settleDeferred_cases s r with e | ⟨p, -, -, e⟩ | ⟨p, -, -, -, e⟩ <;> rw [e]
  · exact .refl s
  · exact .of_eq rfl rfl rfl rfl
  · exact .of_eq rfl rfl rfl rfl

theorem dueClose_eased (s : State) (r : RouteNo) (last : Bool) : QueuesEased s (s.dueClose r last) := by
  rcases dueClose_cases s r last with e | ⟨why, -, e⟩ | e | e <;> rw [e]
  · exact .refl s
  · exact .of_eq rfl rfl rfl rfl
  · exact .of_eq rfl rfl rfl rfl
  · exact .of_eq rfl rfl rfl rfl

/-- An offer leaves the streams as they are: it is the transmitter that counts them (R121, R125). -/
theorem offer_stream {s s' : State} {r : RouteNo} {c : RouteConfig} {corr : Byte} {m : Message}
    (ho : s.offer r c corr = some (s', m)) (q : RouteNo) : (s'.route q).stream = (s.route q).stream := by
  have hroute : ∃ d, d.stream = (s.route r).stream ∧ s'.dispatch = Vec.put s.dispatch r d := by
    rcases offer_cases ho with ⟨slot, rec, e, -, rfl, -⟩ | ⟨cl, e, -, rfl, -⟩
    · exact ⟨(s.route r).offering c rec.id e, rfl, rfl⟩
    · exact ⟨(s.route r).offering c cl.id e, rfl, rfl⟩
  obtain ⟨d, hd, hdispatch⟩ := hroute
  simp only [State.route, hdispatch, Vec.get_put]
  split
  · next hq =>
    subst hq
    exact hd
  · rfl

theorem offer_eased {s s' : State} {r : RouteNo} {c : RouteConfig} {corr : Byte} {m : Message}
    (ho : s.offer r c corr = some (s', m)) : QueuesEased s s' := by
  obtain ⟨hlinks, -, -, -, hintake, hengine, -⟩ := offer_frame ho
  exact .of_parts (fun l => by simp only [State.link, hlinks, le_refl])
    (fun i => by simp only [State.lane, hintake, List.Sublist.refl]) (fun i => by rw [hengine])
    (fun q => Or.inr (offer_stream ho q))

theorem offerRun_eased (r : RouteNo) (c : RouteConfig) (corr : Byte) (n : Nat) (s : State) :
    QueuesEased s (State.offerRun r c corr n s).state :=
  offerRun_keeps (QueuesEased s) (fun _ _ _ h _ ho => h.trans (offer_eased ho)) n s (.refl s)

theorem acknowledge_eased (s : State) (r : RouteNo) (c : RouteConfig) (id : Identity) :
    QueuesEased s (s.acknowledge r c id) := by
  have hroute : QueuesEased s (s.setRoute r ((s.route r).unlisting c id)) := setRoute_eased (Or.inr rfl)
  unfold State.acknowledge
  generalize s.setRoute r ((s.route r).unlisting c id) = b at hroute ⊢
  rcases ackAtQueues_cases b r id with e | ⟨n, rec, -, -, -, e⟩ | ⟨cl, -, -, e⟩ <;> rw [e]
  · exact hroute
  · exact hroute.trans (.of_eq rfl rfl rfl rfl)
  · have hfree : QueuesEased b (b.setQueue r { b.queue r with buffer := none }) := .of_eq rfl rfl rfl rfl
    exact (hroute.trans hfree).trans (settleDeferred_eased _ r)

theorem acknowledgeAll_eased (s : State) (r : RouteNo) (c : RouteConfig) (ids : List Identity) :
    QueuesEased s (s.acknowledgeAll r c ids) :=
  acknowledgeAll_keeps (QueuesEased s) (fun b id h => h.trans (acknowledge_eased b r c id)) ids s (.refl s)

/-! ### Streams closed with STREAM_END (R118, R125, R132) -/

/-- A STREAM_END takes the place of its stream: the stream leaves its route as the message joins its link. -/
theorem streamEnd_eased {s t : State} {r : RouteNo} {st : OpenStream} {d : RouteDispatch} {m : Message}
    (hst : (s.route r).stream = some st) (hp : isPartner st.link = true) (hd : d.stream = none)
    (hlinks : t.links = (s.send st.link m).links) (hlanes : t.intake.lanes = s.intake.lanes) (he : t.engine = s.engine)
    (hdispatch : t.dispatch = Vec.put s.dispatch r d) : QueuesEased s t := by
  have hclosed : QueuesEased s (s.setRoute r d) := setRoute_eased (Or.inl hd)
  have hcount := streamsOn_turn (s := s) (t := s.setRoute r d) (fun q hq => State.route_setRoute_ne s d hq.symm) st.link
  rw [State.route_setRoute, RouteDispatch.streamsTo_closed hd, RouteDispatch.streamsTo_open hst, beq_self_eq_true] at hcount
  have hburden : (s.setRoute r d).burden st.link < s.burden st.link := by
    have hlink : (s.setRoute r d).link st.link = s.link st.link := rfl
    rw [burden_partner _ hp, burden_partner _ hp, hlink]
    simp only [if_true, Bool.false_eq_true, if_false] at hcount
    omega
  have hsent : QueuesEased s ((s.setRoute r d).send st.link m) :=
    Answered.eased ⟨_, _, .refl _, rfl⟩ hclosed hburden
  exact hsent.trans (.of_eq hlinks hlanes he hdispatch)

theorem takeDown_eased {s : State} (hs : s.QueuesOk) (r : RouteNo) (why : DownReason) (cause : EndCause) :
    QueuesEased s (s.takeDown r why cause) := by
  cases hst : (s.route r).stream with
  | none =>
    rw [takeDown_closed why cause hst]
    have hrewind : QueuesEased s (s.rewind r) := .of_eq rfl rfl rfl rfl
    exact hrewind.trans (setRoute_eased (Or.inl rfl))
  | some st =>
    rw [takeDown_open why cause hst]
    exact streamEnd_eased (m := .streamEnd st.corr r cause) (d := (s.route r).takenDown why) hst (hs.streams r st hst) rfl
      rfl rfl rfl rfl

/-! ### The transmitters (R125, R126) -/

/-- A stream that its count leaves open stays on its link (R125). -/
theorem counted_link {st st' : OpenStream} (h : st.counted = some st') : st'.link = st.link := by
  unfold OpenStream.counted at h
  split at h
  · cases h
    rfl
  · split at h <;> cases h
    rfl

/-- The route's stream replaced by one on the same link. -/
theorem keptStream_eased {s t : State} {r : RouteNo} {st st' : OpenStream} {d : RouteDispatch}
    (hst : (s.route r).stream = some st) (hd : d.stream = some st') (hl : st'.link = st.link)
    (hlinks : t.links = s.links) (hlanes : t.intake.lanes = s.intake.lanes) (he : t.engine = s.engine)
    (hdispatch : t.dispatch = Vec.put s.dispatch r d) : QueuesEased s t := by
  have hroute : ∀ q, t.route q = if r = q then d else s.route q := fun q => by
    simp only [State.route, hdispatch, Vec.get_put]
  have hstreams : ∀ q st₁, (t.route q).stream = some st₁ → ∃ st₂, (s.route q).stream = some st₂ ∧ st₂.link = st₁.link := by
    intro q st₁ h
    rw [hroute] at h
    split at h
    · next hq =>
      subst hq
      rw [hd] at h
      cases h
      exact ⟨st, hst, hl.symm⟩
    · exact ⟨st₁, h, rfl⟩
  have hcount : ∀ l, t.streamsOn l ≤ s.streamsOn l := by
    intro l
    refine streamsOn_congr fun q hq => ?_
    cases htq : (t.route q).stream with
    | none => simp [RouteDispatch.streamsTo_closed htq] at hq
    | some st₁ =>
      obtain ⟨st₂, h₂, hl₂⟩ := hstreams q st₁ htq
      rw [RouteDispatch.streamsTo_open htq] at hq
      rw [RouteDispatch.streamsTo_open h₂, hl₂]
      exact hq
  have hlink : ∀ l, t.link l = s.link l := fun l => by simp only [State.link, hlinks]
  have hlane : ∀ i, t.lane i = s.lane i := fun i => by simp only [State.lane, hlanes]
  refine ⟨fun i => by rw [hlane], hstreams, fun l => ?_⟩
  cases l with
  | lane i => simp only [State.burden, hlink, hlane, he, le_refl]
  | dispatch => simp only [State.burden, hlink, Nat.add_le_add_left (hcount _)]
  | service => simp only [State.burden, hlink, Nat.add_le_add_left (hcount _)]

theorem serveStream_eased {s : State} (hs : s.QueuesOk) (l : LinkId) (r : RouteNo) : QueuesEased s (s.serveStream l r) := by
  unfold State.serveStream
  split
  · next c st _ hst =>
    split
    · next s' m ho =>
      have hst' : (s'.route r).stream = some st := (offer_stream ho r).trans hst
      have hsending : QueuesEased s' (s'.setLink l { s'.link l with sending := some m.send, pointer := r }) :=
        setLink_eased (le_refl _)
      refine (offer_eased ho).trans (hsending.trans ?_)
      unfold State.endByCount
      dsimp only
      split
      · next st' hc =>
        exact keptStream_eased (d := { s'.route r with stream := st.counted }) hst' hc (counted_link hc) rfl rfl rfl rfl
      · next hc =>
        exact streamEnd_eased (d := { s'.route r with stream := st.counted }) hst' (hs.streams r st hst) hc rfl rfl rfl rfl
    · exact .refl s
  · exact .refl s

/-- A message that leaves for the wire leaves its response queue no longer (R126 step 1). -/
theorem takeMessage_length {k k' : Link} (h : k.takeMessage = some k') : k'.queue.length ≤ k.queue.length := by
  unfold Link.takeMessage at h
  split at h <;> cases h
  · next hq => simp [hq]
  · next hq => simp [hq]

theorem nextMessage_eased {s : State} (hs : s.QueuesOk) (l : LinkId) : QueuesEased s (s.nextMessage l) := by
  unfold State.nextMessage
  split
  · next k hk => exact setLink_eased (takeMessage_length hk)
  · split
    · exact serveStream_eased hs l _
    · exact .refl s

/-! ### The wrap in flight: GRANT, withdrawal and COMPLETION (R66, R67, R84, R85, R90, R92) -/

theorem voidRecord_frame (s : State) (r : RouteNo) (till : Nat) (h : HistoryEntry) :
    (s.voidRecord r till h).links = s.links ∧ (s.voidRecord r till h).intake = s.intake ∧
      (s.voidRecord r till h).engine = s.engine ∧ (s.voidRecord r till h).dispatch = s.dispatch := by
  unfold State.voidRecord
  split
  · split <;> exact ⟨rfl, rfl, rfl, rfl⟩
  · exact ⟨rfl, rfl, rfl, rfl⟩

theorem withdraw_answered (s : State) (q : Request) (h : HistoryEntry) : Answered (.lane q.lane) s (s.withdraw q h) := by
  obtain ⟨hlinks, hintake, hengine, hdispatch⟩ := voidRecord_frame s (s.term q.terminal).route q.till h
  unfold State.withdraw
  dsimp only
  generalize s.voidRecord (s.term q.terminal).route q.till h = v at hlinks hintake hengine hdispatch ⊢
  refine ⟨_, _, ?_, rfl⟩
  exact .of_eq hlinks (congrArg _ hintake) hengine hdispatch

/-- A reservation for a request owes its lane one answer (R75, R85). -/
theorem reserve_burden (s : State) (q : Request) (p : WrapPlan) (hidle : s.engine = .idle) (l : LinkId) :
    (s.reserve q p).burden l = s.burden l + if l = .lane q.lane then 1 else 0 := by
  have howes : ∀ i, (s.reserve q p).engine.owes i = s.engine.owes i + if i = q.lane then 1 else 0 := by
    intro i
    rw [State.reserve_engine, hidle]
    simp only [Engine.owes, State.reservationWork, and_true, eq_comm, Nat.zero_add]
  cases l with
  | lane i =>
    simp only [State.burden, howes, LinkId.lane.injEq]
    exact (Nat.add_assoc _ _ _).symm
  | dispatch => rfl
  | service => rfl

/-- The head that a grant takes makes room for the answer to it (R66, R67). -/
theorem granted_eased {s : State} {i : LaneNo} {q : Request} {rest : List Request} (hq : (s.lane i).queue = q :: rest) :
    QueuesEased s { s with intake := s.intake.granted i } ∧
      State.burden { s with intake := s.intake.granted i } (.lane i) < s.burden (.lane i) := by
  have hself : State.lane { s with intake := s.intake.granted i } i = { s.lane i with queue := rest } := by
    have htail : (Vec.get s.intake.lanes i).queue.tail = rest := by
      have hget : (Vec.get s.intake.lanes i).queue = q :: rest := hq
      rw [hget, List.tail_cons]
    simp [State.lane, Intake.granted, htail]
  refine ⟨.of_parts (fun _ => le_refl _) (fun j => ?_) (fun _ => le_refl _) (fun _ => Or.inr rfl), ?_⟩
  · by_cases hj : i = j
    · subst hj
      rw [hself, hq]
      exact List.sublist_cons_self q rest
    · have hother : State.lane { s with intake := s.intake.granted i } j = s.lane j := Vec.get_put_ne _ _ hj
      rw [hother]
  · have hlink : State.link { s with intake := s.intake.granted i } (.lane i) = s.link (.lane i) := rfl
    simp only [State.burden, hself, hlink, hq, List.length_cons]
    omega

theorem grantHead_eased {s : State} (hs : s.QueuesOk) (hidle : s.engine = .idle) {i : LaneNo} {q : Request}
    {rest : List Request} (hq : (s.lane i).queue = q :: rest) : QueuesEased s (s.grantHead i q) := by
  obtain rfl : q.lane = i := hs.own i q (by rw [hq]; exact List.mem_cons_self)
  obtain ⟨hpop, hburden⟩ := granted_eased hq
  unfold State.grantHead
  dsimp only
  generalize hv : State.grantChecks _ q = v
  cases v with
  | refused code => exact (answer_answered _ _ _ _ _).eased hpop hburden
  | duplicate h => exact (answer_answered _ _ _ _ _).eased hpop hburden
  | withdraw h => exact (withdraw_answered _ q h).eased hpop hburden
  | wrap p =>
    refine ⟨hpop.intake, hpop.streams, fun l => ?_⟩
    refine (reserve_burden { s with intake := s.intake.granted q.lane } q p hidle l).trans_le ?_
    split
    · next hl =>
      subst hl
      exact hburden
    · exact hpop.burden l

/-- The engine IDLE again: the lane of a wrap whose answer is not discarded bears one answer less (R90, R95). -/
theorem idled_eased {s : State} {k : ReservationKept} {w : ReservationWork} (he : s.engine = .busy k w) :
    QueuesEased s { s with engine := .idle } ∧
      (w.discarded = false → State.burden { s with engine := .idle } (.lane w.lane) < s.burden (.lane w.lane)) := by
  refine ⟨.of_parts (fun _ => le_refl _) (fun _ => List.Sublist.refl _) (fun _ => Nat.zero_le _) (fun _ => Or.inr rfl),
    fun hd => ?_⟩
  have howed : s.engine.owes w.lane = 1 := by simp [he, Engine.owes, hd]
  have hlink : State.link { s with engine := .idle } (.lane w.lane) = s.link (.lane w.lane) := rfl
  have hlane : State.lane { s with engine := .idle } w.lane = s.lane w.lane := rfl
  have hfree : Engine.owes .idle w.lane = 0 := rfl
  simp only [State.burden, howed, hlink, hlane, hfree]
  omega

theorem completeWrap_eased {s : State} {k : ReservationKept} {w : ReservationWork} (he : s.engine = .busy k w) :
    QueuesEased s (s.completeWrap k w) := by
  obtain ⟨hidle, hburden⟩ := idled_eased he
  unfold State.completeWrap
  dsimp only
  split
  · exact hidle.trans (.of_eq rfl rfl rfl rfl)
  · next hd =>
    refine Answered.eased (p := { s with engine := .idle }) ⟨_, _, ?_, rfl⟩ hidle (hburden (by simpa using hd))
    exact .of_eq rfl rfl rfl rfl

theorem execGrant_queuesOk {s : State} (hs : s.QueuesOk) : ∃ t, execGrant s = .next t ∧ t.QueuesOk := by
  refine ⟨_, rfl, ?_⟩
  split
  · split
    · exact hs
    · next i hi =>
      split
      · exact hs
      · next q rest hq => exact hs.eased (grantHead_eased hs (idle_of_eligible (grantLane_eligible hi)) hq)
  · exact hs

theorem execCompletion_queuesOk {s : State} (hs : s.QueuesOk) : ∃ t, execCompletion s = .next t ∧ t.QueuesOk := by
  refine ⟨_, rfl, ?_⟩
  split
  · split
    · next k w he => exact hs.eased ((completeWrap_eased he).trans (dueClose_eased _ _ _))
    · exact hs
  · exact hs

/-! ### Acts on a lane (R59, R60, R69) -/

section

variable (l : LinkId) (corr b : Byte) (t : TerminalNo) (r : RouteNo) (c : RouteConfig) (s : State)

/-- A lane written whose queue has lost requests at most. -/
theorem setLane_eased {i : LaneNo} {k : Lane} (h : (k.queue).Sublist (s.lane i).queue) : QueuesEased s (s.setLane i k) := by
  refine .of_parts (fun _ => le_refl _) (fun j => ?_) (fun _ => le_refl _) (fun _ => Or.inr rfl)
  by_cases hj : i = j
  · subst hj
    rw [State.lane_setLane]
    exact h
  · rw [State.lane_setLane_ne s k hj]

theorem laneHoldAct_answered (held : Bool) : Answered l s (laneHoldAct held l corr b s) := by
  unfold laneHoldAct
  split
  · split
    · exact answer_answered s l corr _
    · refine QueuesEased.answered ?_
      exact setLane_eased s (List.Sublist.refl _)
  · exact answer_answered s l corr _

/-- A queued request owes its lane one answer (R59). -/
theorem laneJoin_burden (s : State) (i : LaneNo) (q : Request) (l : LinkId) :
    (s.setLane i ((s.lane i).push q)).burden l = s.burden l + if l = .lane i then 1 else 0 := by
  cases l with
  | lane j =>
    have hlink : (s.setLane i ((s.lane i).push q)).link (.lane j) = s.link (.lane j) := rfl
    by_cases hj : i = j
    · subst hj
      have hqueue : ((s.setLane i ((s.lane i).push q)).lane i).queue.length = (s.lane i).queue.length + 1 := by
        rw [State.lane_setLane, Lane.push, List.length_append, List.length_singleton]
      simp only [State.burden, hlink, hqueue, State.setLane_engine, if_true]
      omega
    · have hother : LinkId.lane j ≠ .lane i := by simpa using Ne.symm hj
      simp only [State.burden, hlink, State.lane_setLane_ne s _ hj, State.setLane_engine, hother, if_false, Nat.add_zero]
  | dispatch => rfl
  | service => rfl

/-- A request joins the queue of its own lane where the queue holds fewer than 8 and the link still takes frames (R59,
R60). -/
theorem laneJoin_queuesOk {s : State} (hs : s.QueuesOk) {i : LaneNo} {q : Request} (hown : q.lane = i)
    (hqueue : (s.lane i).queue.length < Config.intakeLimit) (hl : s.burden (.lane i) < burdenLimit (.lane i)) :
    (s.setLane i ((s.lane i).push q)).QueuesOk := by
  rw [queuesOk_iff] at hs ⊢
  obtain ⟨hintake, hlanes, hstreams, hburden⟩ := hs
  refine ⟨fun j => ?_, fun j x hx => ?_, hstreams, fun l => ?_⟩
  · by_cases hj : i = j
    · subst hj
      rw [State.lane_setLane, Lane.push, List.length_append]
      exact hqueue
    · rw [State.lane_setLane_ne s _ hj]
      exact hintake j
  · by_cases hj : i = j
    · subst hj
      rw [State.lane_setLane, Lane.push, List.mem_append, List.mem_singleton] at hx
      rcases hx with hx | rfl
      · exact hlanes i x hx
      · exact hown
    · rw [State.lane_setLane_ne s _ hj] at hx
      exact hlanes j x hx
  · rw [laneJoin_burden]
    split
    · next h =>
      subst h
      exact hl
    · exact hburden l

/-- A request that no check of R60 refuses finds room in its lane's queue. -/
theorem arrivalRefusal_none {s : State} {i : LaneNo} {w : WrapBytes} (h : arrivalRefusal s i w = none) :
    (s.lane i).queue.length < Config.intakeLimit := by
  by_contra hfull
  have hbusy : Config.intakeLimit ≤ (s.lane i).queue.length := Nat.not_lt.mp hfull
  unfold arrivalRefusal at h
  split at h
  · cases h
  · simp only [hbusy, if_true] at h
    repeat' split at h
    all_goals cases h

theorem wrapRequestAct_queuesOk {s : State} (hs : s.QueuesOk) {i : LaneNo}
    (hroom : (s.link (.lane i)).queue.length < Config.responseLimit) (kind : WrapKind) (corr : Byte) (p : List Byte) :
    (wrapRequestAct kind i corr p s).QueuesOk := by
  unfold wrapRequestAct
  split
  · split
    · exact answer_queuesOk hs hroom corr _
    · split
      · exact answer_queuesOk hs hroom corr _
      · next hnone => exact laneJoin_queuesOk hs rfl (arrivalRefusal_none hnone) (hs.burden_lt hroom)
  · exact answer_queuesOk hs hroom corr _

/-! ### Acts on the terminals, the families and the clock

Each branch of such an act is a refusal, or an update of other blocks and an answer. -/

theorem enrolAct_answered (a : Place × Nat) : Answered l s (enrolAct l corr t a s) := by
  unfold enrolAct
  repeat' split
  all_goals exact .of_eq rfl rfl rfl rfl

theorem releaseTerminalAct_answered : Answered l s (releaseTerminalAct l corr t s) := by
  refine onEnrolled_answered ?_
  unfold releaseTerminalEnrolled
  split <;> exact .of_eq rfl rfl rfl rfl

theorem moveAct_answered (p : Place) : Answered l s (moveAct l corr t p s) := by
  refine onEnrolled_answered ?_
  unfold moveEnrolled
  repeat' split
  all_goals exact .of_eq rfl rfl rfl rfl

theorem terminalQueryAct_answered : Answered l s (terminalQueryAct l corr b s) := by
  unfold terminalQueryAct
  split <;> exact answer_answered s l corr _ _

theorem keyLoadAct_answered (a : LoadBytes) : Answered l s (keyLoadAct l corr a s) := by
  unfold keyLoadAct keyLoadFamily
  repeat' split
  all_goals exact .of_eq rfl rfl rfl rfl

theorem rollFamilyAct_answered : Answered l s (rollFamilyAct l corr b s) := by
  unfold rollFamilyAct rollFamilyOn
  dsimp only
  repeat' split
  all_goals exact .of_eq rfl rfl rfl rfl

theorem retireFamilyAct_answered : Answered l s (retireFamilyAct l corr b s) := by
  unfold retireFamilyAct retireFamilyOn
  dsimp only
  repeat' split
  all_goals exact .of_eq rfl rfl rfl rfl

theorem familyQueryAct_answered : Answered l s (familyQueryAct l corr b s) := by
  unfold familyQueryAct
  split <;> exact answer_answered s l corr _ _

theorem setCeilingAct_answered (digits : List Byte) : Answered l s (setCeilingAct l corr b digits s) := by
  unfold setCeilingAct
  repeat' split
  all_goals exact .of_eq rfl rfl rfl rfl

theorem setClockAct_answered (time : ClockTime) : Answered l s (setClockAct l corr time s) := by
  unfold setClockAct
  repeat' split
  all_goals exact .of_eq rfl rfl rfl rfl

theorem setCutoverAct_answered (a : Byte × Byte × Byte) : Answered l s (setCutoverAct l corr a s) := by
  unfold setCutoverAct
  repeat' split
  all_goals exact .of_eq rfl rfl rfl rfl

/-! ### Acts on the routes (R117 to R130, R146, R170) -/

theorem routeUpAct_answered : Answered l s (routeUpAct l corr r c s) := by
  unfold routeUpAct
  dsimp only
  split
  · exact answer_answered s l corr _
  · refine QueuesEased.answered ?_
    exact setRoute_eased (Or.inr rfl)

theorem routeDownAct_answered {s : State} (hs : s.QueuesOk) : Answered l s (routeDownAct l corr r c s) := by
  unfold routeDownAct
  dsimp only
  split
  · exact (takeDown_eased hs r _ _).answered
  · refine QueuesEased.answered ?_
    exact setRoute_eased (Or.inr rfl)

theorem pullOneAct_answered : Answered l s (pullOneAct l corr r c s) := by
  unfold pullOneAct
  split
  · split
    · split
      · exact answer_answered s l corr _
      · next ho => exact ⟨_, _, offer_eased ho, rfl⟩
    · exact answer_answered s l corr _
  · exact answer_answered s l corr _

/-- The run of a PULL BLOCK is one entry, however many frames it holds (R123, R156). -/
theorem pullBlockAct_answered (n : Byte) : Answered l s (pullBlockAct l corr n r c s) := by
  unfold pullBlockAct
  split
  · exact ⟨_, _, offerRun_eased r c corr _ s, rfl⟩
  · exact answer_answered s l corr _

theorem streamCloseAct_answered : Answered l s (streamCloseAct l corr r c s) :=
  (setRoute_eased (Or.inl rfl)).answered

theorem ackOneAct_answered (batch sq : Nat) : Answered l s (ackOneAct l corr batch sq r c s) := by
  unfold ackOneAct
  split
  · exact (acknowledge_eased s r c _).answered
  · exact answer_answered s l corr _

theorem ackOldestAct_answered : Answered l s (ackOldestAct l corr r c s) := by
  unfold ackOldestAct
  split
  · exact answer_answered s l corr _
  · exact (acknowledge_eased s r c _).answered

theorem ackThroughAct_answered (batch sq : Nat) : Answered l s (ackThroughAct l corr batch sq r c s) :=
  (acknowledgeAll_eased s r c _).answered

theorem closeBatchAct_answered : Answered l s (closeBatchAct l corr b s) := by
  unfold closeBatchAct
  split
  · split
    · exact answer_answered s l corr _
    · split
      · split
        · exact (requestClose_eased s _ _).answered
        · exact answer_answered s l corr _
      · exact answer_answered s l corr _
  · exact answer_answered s l corr _

theorem routeQueryAct_answered : Answered l s (routeQueryAct l corr b s) := by
  unfold routeQueryAct
  repeat' split
  all_goals exact .of_eq rfl rfl rfl rfl

/-- A stream opened on a link is no burden of another (R124). -/
theorem streamOpened_burden {s : State} {r : RouteNo} {d : RouteDispatch} {st : OpenStream} (hd : d.stream = some st)
    {m : LinkId} (hm : m ≠ st.link) : (s.setRoute r d).burden m ≤ s.burden m := by
  have hcount : (s.setRoute r d).streamsOn m ≤ s.streamsOn m := by
    refine streamsOn_congr fun q hq => ?_
    by_cases hqr : r = q
    · subst hqr
      rw [State.route_setRoute, RouteDispatch.streamsTo_open hd, beq_iff_eq] at hq
      exact absurd hq.symm hm
    · rwa [State.route_setRoute_ne s d hqr] at hq
  have hlink : (s.setRoute r d).link m = s.link m := rfl
  cases m with
  | lane i => exact le_refl _
  | dispatch => simp only [State.burden, hlink, Nat.add_le_add_left hcount]
  | service => simp only [State.burden, hlink, Nat.add_le_add_left hcount]

/-- A STREAM OPEN adds a stream and an answer to its link, which has room for both while it takes frames: all four
streams fit beside 32 entries (R124, R156). -/
theorem streamOpened_queuesOk {s : State} (hs : s.QueuesOk) {r : RouteNo} {d : RouteDispatch} {st : OpenStream}
    (hd : d.stream = some st) (hl : isPartner st.link = true)
    (hroom : (s.link st.link).queue.length < Config.responseLimit) (corr : Byte) :
    ((s.setRoute r d).answer st.link corr .done).QueuesOk := by
  rw [queuesOk_iff] at hs ⊢
  obtain ⟨hintake, hown, hstreams, hburden⟩ := hs
  refine ⟨hintake, hown, fun q st' hq => ?_, fun m => ?_⟩
  · have hroute : ((s.setRoute r d).route q).stream = some st' := hq
    by_cases hqr : r = q
    · subst hqr
      rw [State.route_setRoute, hd] at hroute
      cases hroute
      exact hl
    · rw [State.route_setRoute_ne s d hqr] at hroute
      exact hstreams q st' hroute
  · unfold State.answer State.send
    by_cases hm : m = st.link
    · subst hm
      have hlimit : Config.responseLimit = 32 := rfl
      have hcount := streamsOn_le (s.setRoute r d) st.link
      have hlink : (s.setRoute r d).link st.link = s.link st.link := rfl
      rw [enqueue_burden_same, burden_partner _ hl, burdenLimit_partner hl, hlink]
      omega
    · rw [enqueue_burden_ne _ _ (Ne.symm hm)]
      exact (streamOpened_burden hd hm).trans (hburden m)

theorem streamOpenAct_queuesOk {s : State} (hs : s.QueuesOk) {l : LinkId} (hl : isPartner l = true)
    (hroom : (s.link l).queue.length < Config.responseLimit) (corr n renew : Byte) (r : RouteNo) (c : RouteConfig) :
    (streamOpenAct l corr n renew r c s).QueuesOk := by
  unfold streamOpenAct
  split
  · exact answer_queuesOk hs hroom corr _
  · split
    · exact streamOpened_queuesOk hs (d := { s.route r with stream := some ⟨_, _, _, l, corr⟩ }) rfl hl hroom corr
    · exact answer_queuesOk hs hroom corr _

/-- A link of a ring that may send partner commands is a partner link (R155). -/
theorem isPartner_of_linkRing {l : LinkId} (h : linkRing l ≤ 1) : isPartner l = true := by
  cases l with
  | lane i => exact absurd h (by simp [linkRing])
  | dispatch => rfl
  | service => rfl

/-! ### Setup and ERASE (R71, R95, R163 to R166, R173) -/

theorem abandon_eased : QueuesEased s s.abandon := .of_eq rfl rfl rfl rfl

theorem answerLanes_lane (links : Vector Link 6) (f : LaneNo → List Message) (i : LaneNo) :
    Vec.get (answerLanes links f) (linkIndex (.lane i)) = (Vec.get links (linkIndex (.lane i))).pushAll (f i) := by
  simp [answerLanes, linkIndex]

theorem answerLanes_partner (links : Vector Link 6) (f : LaneNo → List Message) {l : LinkId} (h : isPartner l = true) :
    Vec.get (answerLanes links f) (linkIndex l) = Vec.get links (linkIndex l) := by
  cases l with
  | lane i => cases h
  | dispatch => simp [answerLanes, linkIndex]
  | service => simp [answerLanes, linkIndex]

/-- Every queued request, and with an ERASE the wrap in flight, is answered: what the lanes were owed is in their response
queues (R71, R95). -/
theorem answerLanes_eased {s t : State} {links : Vector Link 6} {f : LaneNo → List Message}
    (hlen : ∀ l, (Vec.get links (linkIndex l)).queue.length ≤ (s.link l).queue.length)
    (hlinks : t.links = answerLanes links f) (hlane : ∀ i, (t.lane i).queue = [])
    (hf : ∀ i, (f i).length + t.engine.owes i ≤ (s.lane i).queue.length + s.engine.owes i)
    (hstream : ∀ r, (t.route r).stream = none ∨ (t.route r).stream = (s.route r).stream) : QueuesEased s t := by
  have hopen : QueuesEased s { s with dispatch := t.dispatch } :=
    .of_parts (fun _ => le_refl _) (fun _ => List.Sublist.refl _) (fun _ => le_refl _) hstream
  refine ⟨fun i => by simp [hlane], hopen.streams, fun l => ?_⟩
  have hbase := hlen l
  cases l with
  | lane i =>
    have hlink : t.link (.lane i) = (Vec.get links (linkIndex (.lane i))).pushAll (f i) := by
      rw [State.link, hlinks, answerLanes_lane]
    have howed := hf i
    simp only [State.burden, hlink, hlane, Link.pushAll, List.length_append, List.length_map, List.length_nil]
    omega
  | dispatch =>
    have hlink : t.link .dispatch = Vec.get links (linkIndex .dispatch) := by
      rw [State.link, hlinks, answerLanes_partner _ _ rfl]
    have hcount : t.streamsOn .dispatch + (s.link .dispatch).queue.length ≤ s.burden .dispatch := by
      rw [Nat.add_comm]
      exact hopen.burden .dispatch
    simp only [State.burden, hlink] at hcount ⊢
    omega
  | service =>
    have hlink : t.link .service = Vec.get links (linkIndex .service) := by
      rw [State.link, hlinks, answerLanes_partner _ _ rfl]
    have hcount : t.streamsOn .service + (s.link .service).queue.length ≤ s.burden .service := by
      rw [Nat.add_comm]
      exact hopen.burden .service
    simp only [State.burden, hlink] at hcount ⊢
    omega

theorem openSetup_eased (n : Nat) (flags : Byte) : QueuesEased s (s.openSetup n flags) := by
  refine answerLanes_eased (links := s.links) (f := fun i => queuedAnswers (s.lane i)) (fun _ => le_refl _) rfl (fun i => ?_)
    (fun i => ?_) (fun _ => Or.inr rfl)
  · simp [State.openSetup, State.lane, Intake.emptied, Lane.emptied]
  · simp [State.openSetup, queuedAnswers]

theorem eraseAnswers_length (e : Engine) (i : LaneNo) : (e.eraseAnswers i).length = e.owes i := by
  cases e with
  | idle => rfl
  | cut k => rfl
  | busy k w =>
    simp only [Engine.eraseAnswers, Engine.owes]
    split <;> rfl

theorem erased_eased : QueuesEased s s.erased := by
  refine answerLanes_eased (links := Vec.gen fun j => (Vec.get s.links j).withoutPlaces) (f := s.eraseAnswers) (fun l => ?_)
    rfl (fun i => ?_) (fun i => ?_) (fun r => Or.inl ?_)
  · rw [Vec.get_gen]
    exact List.length_filter_le _ _
  · simp [State.erased, State.lane, Intake.start]
  · have hfree : Engine.owes .idle i = 0 := rfl
    simp only [State.erased, State.eraseAnswers, queuedAnswers, List.length_append, List.length_map, eraseAnswers_length,
      hfree]
    omega
  · simp [State.erased, State.route, RouteDispatch.absent]

theorem install_eased (g : Staged) : QueuesEased s (s.install g) := by
  refine .of_parts (fun _ => le_refl _) (fun _ => List.Sublist.refl _) (fun _ => le_refl _) (fun r => Or.inl ?_)
  simp only [State.install, State.route, Vec.get_gen]
  cases Vec.get g.config r <;> rfl

theorem setupBeginAct_answered (a : Byte × Byte) : Answered l s (setupBeginAct l corr a s) := by
  unfold setupBeginAct
  split
  · exact (abandon_eased s).answered
  · split
    · exact answer_answered s l corr _
    · split
      · exact answer_answered s l corr _
      · exact (openSetup_eased s _ _).answered

theorem routeDefineAct_answered (a : DefineBytes) : Answered l s (routeDefineAct l corr a s) := by
  unfold routeDefineAct routeDefineStaged
  repeat' split
  all_goals exact .of_eq rfl rfl rfl rfl

theorem setupEndAct_answered : Answered l s (setupEndAct l corr s) := by
  unfold setupEndAct
  split
  · split
    · split
      · split
        · exact (install_eased s _).answered
        · exact (abandon_eased s).answered
      · exact (abandon_eased s).answered
    · exact (abandon_eased s).answered
  · exact answer_answered s l corr _

theorem faultReadAct_answered : Answered l s (faultReadAct l corr s) := by
  unfold faultReadAct
  dsimp only
  split <;> exact .of_eq rfl rfl rfl rfl

end

/-! ### Events of the links (R72, R136, R153, R158, R160) -/

section

variable {s : State}

/-- The answer of a wrap whose lane's link is reset will be discarded: the lane is owed nothing (R72). -/
theorem discard_owes (e : Engine) (i j : LaneNo) : (e.discard i).owes j = if i = j then 0 else e.owes j := by
  cases e with
  | idle => simp [Engine.discard, Engine.owes]
  | cut k => simp [Engine.discard, Engine.owes]
  | busy k w =>
    by_cases hw : w.lane = i
    · by_cases hij : i = j
      · simp [Engine.discard, Engine.owes, hw, hij]
      · simp [Engine.discard, Engine.owes, hw, hij]
    · by_cases hij : i = j
      · subst hij
        simp [Engine.discard, Engine.owes, hw]
      · simp [Engine.discard, Engine.owes, hw, hij]

theorem closedOn_stream (d : RouteDispatch) (l : LinkId) : (d.closedOn l).stream = none ∨ (d.closedOn l).stream = d.stream := by
  unfold RouteDispatch.closedOn
  split
  · split
    · exact Or.inl rfl
    · exact Or.inr rfl
  · exact Or.inr rfl

theorem closedOn_streamsTo (d : RouteDispatch) (l : LinkId) : (d.closedOn l).streamsTo l = false := by
  cases hd : d.stream with
  | none => simp [RouteDispatch.closedOn, RouteDispatch.streamsTo, hd]
  | some st =>
    by_cases hl : st.link = l
    · simp [RouteDispatch.closedOn, RouteDispatch.streamsTo, hd, hl]
    · simp [RouteDispatch.closedOn, RouteDispatch.streamsTo, hd, hl]

theorem closeStreams_eased {t : State} {l : LinkId} (hlinks : t.links = s.links) (hlanes : t.intake.lanes = s.intake.lanes)
    (he : t.engine = s.engine) (hd : t.dispatch = closeStreams s.dispatch l) : QueuesEased s t :=
  .of_parts (fun m => by simp only [State.link, hlinks, le_refl])
    (fun i => by simp only [State.lane, hlanes, List.Sublist.refl]) (fun i => by rw [he])
    (fun r => by
      simp only [State.route, hd, closeStreams, Vec.get_gen]
      exact closedOn_stream _ l)

theorem resetBlocks_eased (s : State) (l : LinkId) : QueuesEased s (s.resetBlocks l) := by
  cases l with
  | lane i =>
    refine .of_parts (fun _ => le_refl _) (fun j => ?_) (fun j => ?_) (fun _ => Or.inr rfl)
    · have hlane : (s.resetBlocks (.lane i)).lane j = (s.setLane i (s.lane i).emptied).lane j := rfl
      rw [hlane]
      exact (setLane_eased s (List.nil_sublist _)).intake j
    · have hengine : (s.resetBlocks (.lane i)).engine = s.engine.discard i := rfl
      rw [hengine, discard_owes]
      split
      · exact Nat.zero_le _
      · exact le_refl _
  | dispatch => exact closeStreams_eased rfl rfl rfl rfl
  | service => exact closeStreams_eased rfl rfl rfl rfl

theorem resetLink_eased (s : State) (l : LinkId) (rx : Receiver) : QueuesEased s (s.resetLink l rx) :=
  (resetBlocks_eased s l).trans (setLink_eased (Nat.zero_le _))

theorem streamsOn_closed {t : State} {l : LinkId} (hd : t.dispatch = closeStreams s.dispatch l) : t.streamsOn l = 0 := by
  rw [streamsOn_eq, List.countP_eq_zero]
  intro r _
  simp only [State.route, hd, closeStreams, Vec.get_gen, closedOn_streamsTo, Bool.false_eq_true, not_false_eq_true]

/-- A link that has been reset bears nothing (R72, R136, R160). -/
theorem resetLink_burden (s : State) (l : LinkId) (rx : Receiver) : (s.resetLink l rx).burden l = 0 := by
  have hlink : ((s.resetLink l rx).link l).queue = [] := by
    simp only [State.resetLink, State.link_setLink, Link.reset]
  cases l with
  | lane i =>
    have hlane : ((s.resetLink (.lane i) rx).lane i).queue = [] := by
      have hput : (s.resetLink (.lane i) rx).lane i = (s.setLane i (s.lane i).emptied).lane i := rfl
      rw [hput, State.lane_setLane, Lane.emptied]
    have hengine : (s.resetLink (.lane i) rx).engine = s.engine.discard i := rfl
    simp [State.burden, hlink, hlane, hengine, discard_owes]
  | dispatch => simp only [State.burden, hlink, streamsOn_closed (s := s) (t := s.resetLink .dispatch rx) rfl, List.length_nil]
  | service => simp only [State.burden, hlink, streamsOn_closed (s := s) (t := s.resetLink .service rx) rfl, List.length_nil]

variable (hs : s.QueuesOk)
include hs

theorem execLinkReset_queuesOk (l : LinkId) (corr : Byte) (p : List Byte) :
    ∃ t, execLinkReset l corr p s = .next t ∧ t.QueuesOk := by
  have hreset : (s.resetLink l .hunting).burden l < burdenLimit l := by
    rw [resetLink_burden]
    cases l <;> exact Nat.succ_pos _
  refine ⟨_, rfl, ?_⟩
  split
  · split
    · rcases frameArrives_queuesOk hs l (0x0F#8 :: corr :: p) with ⟨t, he, ht⟩ | ⟨t, he, ht, -⟩ <;> rw [he] <;> exact ht
    · exact enqueue_queuesOk (hs.eased (resetLink_eased s l .hunting)) hreset _
  · exact hs

theorem execFrameBad_queuesOk (l : LinkId) (chars : List LineChar) : ∃ t, execFrameBad l chars s = .next t ∧ t.QueuesOk := by
  refine ⟨_, rfl, ?_⟩
  split
  · split
    · exact reportBad_queuesOk hs l _
    · exact hs.eased (setLink_eased (le_refl _))
    · exact hs
  · exact hs

theorem execLineBreak_queuesOk (l : LinkId) : ∃ t, execLineBreak l s = .next t ∧ t.QueuesOk := by
  have hlow : QueuesEased s (s.setLink l { s.link l with low := true }) := setLink_eased (le_refl _)
  refine ⟨_, rfl, ?_⟩
  dsimp only
  split
  · exact hs.eased (hlow.trans (resetLink_eased _ l .inBreak))
  · exact hs.eased hlow

theorem execLineBreakEnd_queuesOk (l : LinkId) : ∃ t, execLineBreakEnd l s = .next t ∧ t.QueuesOk :=
  ⟨_, rfl, hs.eased (setLink_eased (le_refl _))⟩

theorem execUnknownKind_queuesOk (l : LinkId) (corr kind : Byte) (p : List Byte) :
    ∃ t, execUnknownKind l corr kind p s = .next t ∧ t.QueuesOk := by
  refine ⟨_, rfl, ?_⟩
  split
  · exact hs
  · rcases frameArrives_queuesOk hs l (kind :: corr :: p) with ⟨t, he, ht⟩ | ⟨t, he, ht, hroom⟩ <;> rw [he]
    · exact ht
    · exact answer_queuesOk ht hroom corr _

theorem execStreamOffer_queuesOk (l : LinkId) : ∃ t, execStreamOffer l s = .next t ∧ t.QueuesOk := by
  refine ⟨_, rfl, ?_⟩
  split
  · exact hs.eased (nextMessage_eased hs l)
  · exact hs

theorem execTransmitComplete_queuesOk (l : LinkId) : ∃ t, execTransmitComplete l s = .next t ∧ t.QueuesOk := by
  refine ⟨_, rfl, ?_⟩
  split
  · have hidle : (s.setLink l { s.link l with sending := none }).QueuesOk := hs.eased (setLink_eased (le_refl _))
    exact hidle.eased (nextMessage_eased hidle l)
  · exact hs

theorem execAckTimerExpiry_queuesOk (r : RouteNo) : ∃ t, execAckTimerExpiry r s = .next t ∧ t.QueuesOk := by
  refine ⟨_, rfl, ?_⟩
  split
  · exact hs.eased ((takeDown_eased hs r .timeout .timeout).trans (.of_eq rfl rfl rfl rfl))
  · exact hs

end

/-! ### Events of the keys, the clock and the closes -/

/-- The answer of a load or roll fills its place: the response queues grow by nothing (R156). -/
theorem fillPlace_length (f : FamilyNo) (code : Code) (reply : Reply) (es : List QueueEntry) :
    (fillPlace f code reply es).length = es.length := by
  induction es with
  | nil => rfl
  | cons e es ih =>
    cases e with
    | run m more => simp only [fillPlace, List.length_cons, ih]
    | place g corr =>
      simp only [fillPlace]
      split
      · rfl
      · simp only [List.length_cons, ih]

theorem fill_eased (s : State) (f : FamilyNo) (code : Code) (reply : Reply) : QueuesEased s (s.fill f code reply) := by
  refine .of_parts (fun l => ?_) (fun _ => List.Sublist.refl _) (fun _ => le_refl _) (fun _ => Or.inr rfl)
  simp only [State.link, State.fill, Vec.get_gen, fillPlace_length, le_refl]

section

variable (s : State)

theorem finishLoad_eased (f : FamilyNo) (w : LoadWork) (root : Root) (check : BitVec 24) :
    QueuesEased s (s.finishLoad f w root check) := by
  unfold State.finishLoad
  dsimp only
  split
  · refine QueuesEased.trans ?_ (fill_eased _ f _ _)
    exact .of_eq rfl rfl rfl rfl
  · refine QueuesEased.trans ?_ (fill_eased _ f _ _)
    exact .of_eq rfl rfl rfl rfl

theorem execLoadCompletion_eased (f : FamilyNo) : ∃ t, execLoadCompletion f s = .next t ∧ QueuesEased s t := by
  refine ⟨_, rfl, ?_⟩
  split
  · split
    · exact finishLoad_eased s f _ _ _
    · exact .refl s
  · exact .refl s

theorem execRollCompletion_eased (f : FamilyNo) : ∃ t, execRollCompletion f s = .next t ∧ QueuesEased s t := by
  have hroll : QueuesEased s (s.finishRoll f) := .of_eq rfl rfl rfl rfl
  refine ⟨_, rfl, ?_⟩
  split
  · split
    · exact hroll.trans (fill_eased _ f _ _)
    · exact hroll.trans (.of_eq rfl rfl rfl rfl)
    · exact .refl s
  · exact .refl s

theorem execTick_eased : ∃ t, execTick s = .next t ∧ QueuesEased s t := by
  refine ⟨_, rfl, ?_⟩
  dsimp only
  split
  · refine .of_parts (fun _ => le_refl _) (fun _ => List.Sublist.refl _) (fun _ => le_refl _) (fun r => Or.inr ?_)
    simp only [State.route, tickTimers, Vec.get_gen]
  · exact .of_eq rfl rfl rfl rfl

theorem execNearWarning_eased : ∃ t, execNearWarning s = .next t ∧ QueuesEased s t := by
  refine ⟨_, rfl, ?_⟩
  split <;> exact .of_eq rfl rfl rfl rfl

theorem execCutoverMatch_eased : ∃ t, execCutoverMatch s = .next t ∧ QueuesEased s t := by
  refine ⟨_, rfl, ?_⟩
  repeat' split
  all_goals exact .of_eq rfl rfl rfl rfl

theorem execCutoverClosingStart_eased : ∃ t, execCutoverClosingStart s = .next t ∧ QueuesEased s t := by
  refine ⟨_, rfl, ?_⟩
  split <;> exact .of_eq rfl rfl rfl rfl

theorem execCutoverRouteClose_eased : ∃ t, execCutoverRouteClose s = .next t ∧ QueuesEased s t := by
  refine ⟨_, rfl, ?_⟩
  split
  · split
    · next r _ => exact (askClose_eased s r).trans (.of_eq rfl rfl rfl rfl)
    · exact .of_eq rfl rfl rfl rfl
  · exact .refl s

theorem rollTurn_eased (f : FamilyNo) : QueuesEased s (s.rollTurn f) := by
  unfold State.rollTurn
  dsimp only
  repeat' split
  all_goals exact .of_eq rfl rfl rfl rfl

theorem execCutoverFamilyRoll_eased : ∃ t, execCutoverFamilyRoll s = .next t ∧ QueuesEased s t := by
  refine ⟨_, rfl, ?_⟩
  split
  · split
    · split
      · exact .refl s
      · exact rollTurn_eased s _
    · exact .refl s
  · exact .refl s

theorem execDeferredClose_eased (r : RouteNo) : ∃ t, execDeferredClose r s = .next t ∧ QueuesEased s t := by
  refine ⟨_, rfl, ?_⟩
  split
  · exact settleDeferred_eased s r
  · exact .refl s

/-! ### Supply and retention (R73, R135, R161, R171 to R173) -/

theorem startLinks_queue {t : State} {straps : BitVec 6} (h : t.links = startLinks s.links straps) (l : LinkId) :
    (t.link l).queue = [] := by
  simp only [State.link, h, startLinks, Vec.get_gen, Link.restart]

theorem intakeStart_queue {t : State} (h : t.intake = Intake.start) (i : LaneNo) : (t.lane i).queue = [] := by
  simp only [State.lane, h, Intake.start, Vec.get_replicate]

theorem dispatchAtRestore_stream (c : Option RouteConfig) : (dispatchAtRestore c).stream = none := by
  cases c <;> rfl

theorem warmRestore_eased (straps : BitVec 6) : QueuesEased s (s.warmRestore straps) := by
  obtain ⟨-, -, hidle, hlinks, hintake, -⟩ := restoreSettled_facts s straps
  have hundone := undoAll_start (restoreSettled s straps)
  obtain ⟨hdispatch, -, -, htailEngine, htailLinks, htailIntake, -, -⟩ :=
    restoreTail_start (restoreSettled s straps).undoAll
  have hresumed := resume_start (restoreSettled s straps).undoAll.restoreDispatch.releaseAll
  refine emptied_eased s (startLinks_queue s (straps := straps) ?_) (intakeStart_queue ?_) (fun k w he => ?_) (fun r => ?_)
  · exact hresumed.links.trans (htailLinks.trans (hundone.links.trans hlinks))
  · exact hresumed.intake.trans (htailIntake.trans (hundone.intake.trans hintake))
  · have hengine := hresumed.engine.trans (htailEngine.trans (hundone.engine.trans hidle))
    exact absurd (hengine.symm.trans he) (by simp)
  · have hroutes := hresumed.dispatch.trans hdispatch
    have hroute : (s.warmRestore straps).dispatch = _ := hroutes
    simp only [State.route, hroute, Vec.get_gen, dispatchAtRestore_stream]

theorem execWarmRestore_eased (straps : BitVec 6) : ∃ t, execWarmRestore straps s = .next t ∧ QueuesEased s t := by
  refine ⟨_, rfl, ?_⟩
  split
  · exact warmRestore_eased s straps
  · exact .refl s

theorem execStoreLost_eased (straps : BitVec 6) : ∃ t, execStoreLost straps s = .next t ∧ QueuesEased s t := by
  refine ⟨_, rfl, ?_⟩
  split
  · refine emptied_eased s (startLinks_queue s rfl) (intakeStart_queue rfl) (fun k w he => by cases he) (fun r => ?_)
    simp [State.lost, State.reset, State.route, RouteDispatch.absent]
  · exact .refl s

theorem execResetLine_eased : ∃ t, execResetLine s = .next t ∧ QueuesEased s t := by
  refine ⟨_, rfl, ?_⟩
  split <;> exact .of_eq rfl rfl rfl rfl

theorem execPowerLoss_eased : ∃ t, execPowerLoss s = .next t ∧ QueuesEased s t := by
  refine ⟨_, rfl, ?_⟩
  split
  · exact .refl s
  · refine emptied_eased s (fun l => ?_) (intakeStart_queue rfl) (lapse_not_busy s.engine) (fun r => ?_)
    · simp only [State.link, State.lapse, Vec.get_gen, Link.restart]
    · simp [State.lapse, State.route, RouteDispatch.absent]

end

/-! ### Every step -/

/-- An event that adds to no queue keeps the bounds. -/
theorem queuesOk_of_eased {o : Host.Outcome State Fault Refusal} {s : State} (hs : s.QueuesOk)
    (h : ∃ t, o = .next t ∧ QueuesEased s t) : ∃ t, o = .next t ∧ t.QueuesOk := by
  obtain ⟨t, he, hk⟩ := h
  exact ⟨t, he, hs.eased hk⟩

/-- The three wrap requests (R59, R60). -/
theorem wrapRequest_queuesOk {s : State} (hs : s.QueuesOk) (kindByte : Byte) (kind : WrapKind) (l : LinkId) (corr : Byte)
    (p : List Byte) : (laneRequest kindByte l corr p (fun i => wrapRequestAct kind i corr p) s).QueuesOk := by
  refine laneRequest_queuesOk hs fun i b hl hb hroom => ?_
  subst hl
  exact wrapRequestAct_queuesOk hb hroom kind corr p

theorem laneStatus_queuesOk {s : State} (hs : s.QueuesOk) (kindByte : Byte) (l : LinkId) (corr : Byte) (p : List Byte) :
    (laneRequest kindByte l corr p (laneStatusAct corr) s).QueuesOk := by
  refine laneRequest_queuesOk hs fun i b hl hb hroom => ?_
  subst hl
  exact answer_queuesOk hb hroom corr _ _

theorem streamOpen_queuesOk {s : State} (hs : s.QueuesOk) (kindByte : Byte) (l : LinkId) (corr : Byte) (p : List Byte) :
    (request kindByte 1 parseThree id l corr p (fun a => onRoute l corr a.1 (streamOpenAct l corr a.2.1 a.2.2)) s).QueuesOk :=
  request_queuesOk hs QueuesEased.refl fun a _ hring hb hroom =>
    onRoute_keeps State.QueuesOk (fun code => answer_queuesOk hb hroom corr code)
      fun r c _ _ => streamOpenAct_queuesOk hb (isPartner_of_linkRing hring) hroom corr a.2.1 a.2.2 r c

/-- Every command answers next and keeps the intake and response queues within their bounds. -/
theorem exec_queuesOk (c : Instr) {s : State} (hs : s.QueuesOk) : ∃ t, exec c s = .next t ∧ t.QueuesOk := by
  have hplain := QueuesEased.refl
  cases c with
  | auth l corr p => exact ⟨_, rfl, wrapRequest_queuesOk hs _ .auth l corr p⟩
  | refund l corr p => exact ⟨_, rfl, wrapRequest_queuesOk hs _ .refund l corr p⟩
  | reversal l corr p => exact ⟨_, rfl, wrapRequest_queuesOk hs _ .reversal l corr p⟩
  | laneStatus l corr p => exact ⟨_, rfl, laneStatus_queuesOk hs _ l corr p⟩
  | linkReset l corr p => exact execLinkReset_queuesOk hs l corr p
  | frameBad l chars => exact execFrameBad_queuesOk hs l chars
  | lineBreak l => exact execLineBreak_queuesOk hs l
  | lineBreakEnd l => exact execLineBreakEnd_queuesOk hs l
  | grant => exact execGrant_queuesOk hs
  | completion => exact execCompletion_queuesOk hs
  | enrol l corr p =>
    exact ⟨_, rfl, request_answered hs hplain fun _ b _ => onTerminal_answered fun t a => enrolAct_answered l corr t b a⟩
  | holdTerminal l corr p =>
    exact ⟨_, rfl, terminalCommand_answered hs fun _ _ => onEnrolled_answered (.of_eq rfl rfl rfl rfl)⟩
  | releaseTerminal l corr p =>
    exact ⟨_, rfl, terminalCommand_answered hs fun t b => releaseTerminalAct_answered l corr t b⟩
  | move l corr p =>
    exact ⟨_, rfl, request_answered hs hplain fun _ b _ => onTerminal_answered fun t a => moveAct_answered l corr t b a⟩
  | retire l corr p =>
    exact ⟨_, rfl, terminalCommand_answered hs fun _ _ => onEnrolled_answered (.of_eq rfl rfl rfl rfl)⟩
  | setFloor l corr p =>
    exact ⟨_, rfl, request_answered hs hplain fun _ _ _ =>
      onTerminal_answered fun _ _ => onEnrolled_answered (.of_eq rfl rfl rfl rfl)⟩
  | terminalQuery l corr p =>
    exact ⟨_, rfl, request_answered hs hplain fun a b _ => terminalQueryAct_answered l corr a b⟩
  | keyLoad l corr p => exact ⟨_, rfl, request_answered hs hplain fun a b _ => keyLoadAct_answered l corr b a⟩
  | loadCompletion f => exact queuesOk_of_eased hs (execLoadCompletion_eased s f)
  | rollFamily l corr p => exact ⟨_, rfl, request_answered hs hplain fun a b _ => rollFamilyAct_answered l corr a b⟩
  | rollCompletion f => exact queuesOk_of_eased hs (execRollCompletion_eased s f)
  | retireFamily l corr p => exact ⟨_, rfl, request_answered hs hplain fun a b _ => retireFamilyAct_answered l corr a b⟩
  | familyQuery l corr p => exact ⟨_, rfl, request_answered hs hplain fun a b _ => familyQueryAct_answered l corr a b⟩
  | setCeiling l corr p =>
    exact ⟨_, rfl, request_answered hs hplain fun a b _ => setCeilingAct_answered l corr a.1 b a.2⟩
  | holdLane l corr p => exact ⟨_, rfl, request_answered hs hplain fun a b _ => laneHoldAct_answered l corr a b true⟩
  | releaseLane l corr p => exact ⟨_, rfl, request_answered hs hplain fun a b _ => laneHoldAct_answered l corr a b false⟩
  | routeUp l corr p => exact ⟨_, rfl, routeCommand_answered hs fun r c b _ => routeUpAct_answered l corr r c b⟩
  | routeDown l corr p => exact ⟨_, rfl, routeCommand_answered hs fun r c _ hb => routeDownAct_answered l corr r c hb⟩
  | pullOne l corr p => exact ⟨_, rfl, routeCommand_answered hs fun r c b _ => pullOneAct_answered l corr r c b⟩
  | pullBlock l corr p =>
    exact ⟨_, rfl, request_answered hs hplain fun a b _ => onRoute_answered fun r c => pullBlockAct_answered l corr r c b a.2⟩
  | streamOpen l corr p => exact ⟨_, rfl, streamOpen_queuesOk hs _ l corr p⟩
  | streamClose l corr p => exact ⟨_, rfl, routeCommand_answered hs fun r c b _ => streamCloseAct_answered l corr r c b⟩
  | streamOffer l => exact execStreamOffer_queuesOk hs l
  | transmitComplete l => exact execTransmitComplete_queuesOk hs l
  | ackOne l corr p =>
    exact ⟨_, rfl, request_answered hs hplain fun a b _ =>
      onRoute_answered fun r c => ackOneAct_answered l corr r c b a.2.1 a.2.2⟩
  | ackOldest l corr p => exact ⟨_, rfl, routeCommand_answered hs fun r c b _ => ackOldestAct_answered l corr r c b⟩
  | ackThrough l corr p =>
    exact ⟨_, rfl, request_answered hs hplain fun a b _ =>
      onRoute_answered fun r c => ackThroughAct_answered l corr r c b a.2.1 a.2.2⟩
  | ackTimerExpiry r => exact execAckTimerExpiry_queuesOk hs r
  | tick => exact queuesOk_of_eased hs (execTick_eased s)
  | nearWarning => exact queuesOk_of_eased hs (execNearWarning_eased s)
  | cutoverMatch => exact queuesOk_of_eased hs (execCutoverMatch_eased s)
  | cutoverClosingStart => exact queuesOk_of_eased hs (execCutoverClosingStart_eased s)
  | cutoverRouteClose => exact queuesOk_of_eased hs (execCutoverRouteClose_eased s)
  | cutoverFamilyRoll => exact queuesOk_of_eased hs (execCutoverFamilyRoll_eased s)
  | setClock l corr p => exact ⟨_, rfl, request_answered hs hplain fun a b _ => setClockAct_answered l corr b a⟩
  | setCutover l corr p => exact ⟨_, rfl, request_answered hs hplain fun a b _ => setCutoverAct_answered l corr b a⟩
  | closeBatch l corr p => exact ⟨_, rfl, request_answered hs hplain fun a b _ => closeBatchAct_answered l corr a b⟩
  | deferredClose r => exact queuesOk_of_eased hs (execDeferredClose_eased s r)
  | setupBegin l corr p => exact ⟨_, rfl, request_answered hs abandon_eased fun a b _ => setupBeginAct_answered l corr b a⟩
  | routeDefine l corr p => exact ⟨_, rfl, request_answered hs abandon_eased fun a b _ => routeDefineAct_answered l corr b a⟩
  | setupEnd l corr p => exact ⟨_, rfl, request_answered hs abandon_eased fun _ b _ => setupEndAct_answered l corr b⟩
  | statusRead l corr p => exact ⟨_, rfl, request_answered hs hplain fun _ _ _ => .of_eq rfl rfl rfl rfl⟩
  | faultRead l corr p => exact ⟨_, rfl, request_answered hs hplain fun _ b _ => faultReadAct_answered l corr b⟩
  | routeQuery l corr p => exact ⟨_, rfl, request_answered hs hplain fun a b _ => routeQueryAct_answered l corr a b⟩
  | erase l corr p => exact ⟨_, rfl, request_answered hs hplain fun _ b _ => (erased_eased b).answered⟩
  | warmRestore straps => exact queuesOk_of_eased hs (execWarmRestore_eased s straps)
  | storeLost straps => exact queuesOk_of_eased hs (execStoreLost_eased s straps)
  | resetLine => exact queuesOk_of_eased hs (execResetLine_eased s)
  | powerLoss => exact queuesOk_of_eased hs (execPowerLoss_eased s)
  | retentionLoss => exact ⟨_, rfl, hs.eased (.of_eq rfl rfl rfl rfl)⟩
  | unknownKind l corr kind p => exact execUnknownKind_queuesOk hs l corr kind p

/-- Settles O54: what a link bears, its response queue and what may yet join it unasked, grows by the answer to a frame
alone, and a link takes frames only while the bound leaves room; an answer given later takes the place of what was owed. -/
theorem stepKeepsQueuesOk : Obligations.StepKeepsQueuesOk := by
  intro s t hs hstep
  unfold step at hstep
  split at hstep
  · cases hstep
    exact hs
  · next c rest _ =>
    have hb : State.QueuesOk { s with pending := rest } := hs.eased (.of_eq rfl rfl rfl rfl)
    obtain ⟨u, hu, hok⟩ := exec_queuesOk c hb
    rw [hu] at hstep
    cases hstep
    exact hok

end Sys2Proof.Machine
end

section
/-! Wrap requests at their arrival, the lane holds and ceilings, the queries and the choice of a head
(04_intake_and_arbitration.md, R59 to R69; R12, R36, R46, R100, R170). -/

namespace Sys2Proof.Machine

/-! ### Wrap requests at their arrival (R60, R61, R175) -/

/-- The three wrap requests are one command, up to what the lane asks for (R59, R60). -/
theorem exec_wrapRequest {i : LaneNo} {p : List Byte} {s : State} (h : s.Hears (.lane i) p.length) (corr : Byte) :
    exec (.auth (.lane i) corr p) s = .next (wrapRequestAct .auth i corr p s) ∧
    exec (.refund (.lane i) corr p) s = .next (wrapRequestAct .refund i corr p s) ∧
    exec (.reversal (.lane i) corr p) s = .next (wrapRequestAct .reversal i corr p s) :=
  ⟨congrArg _ (laneRequest_taken h), congrArg _ (laneRequest_taken h), congrArg _ (laneRequest_taken h)⟩

/-- A payload below 11 bytes ends before the fixed part does (R61, R175). -/
theorem parseWrap_short {p : List Byte} (h : p.length < 11) : parseWrap p = none := by
  unfold parseWrap
  split
  · simp only [List.length_cons] at h
    omega
  · rfl

/-- The fields of a wrap request as they lie in its payload (R175). -/
def wrapFields (t s1 s0 a b c d e f g n : Byte) (card : List Byte) : WrapBytes :=
  ⟨t, numberOf [s1, s0], [a, b, c, d, e, f, g], n.toNat, card⟩

theorem parseWrap_wrapPayload (t s1 s0 a b c d e f g n : Byte) (card : List Byte) :
    parseWrap (wrapPayload t s1 s0 a b c d e f g n card) = some (wrapFields t s1 s0 a b c d e f g n card) :=
  rfl

section

variable {s : State} {i : LaneNo} {w : WrapBytes} {tn : TerminalNo}

theorem arrivalRefusal_range (h : 64 ≤ w.terminal.toNat) : arrivalRefusal s i w = some .terminalRange := by
  simp [arrivalRefusal, indexOf_none w.terminal h]

/-- The checks that follow that of the terminal number, in their order (R60). -/
theorem arrivalRefusal_terminal (hb : w.terminal.toNat = tn.val) :
    arrivalRefusal s i w =
      if (s.term tn).state = .vacant then some .terminalVacant
      else if (s.term tn).lane ≠ i then some .wrongLane
      else if w.declared < 8 ∨ 64 < w.declared then some .cardLength
      else if w.card.length < w.declared then some .cardShort
      else if w.declared < w.card.length then some .cardLong
      else if Config.intakeLimit ≤ (s.lane i).queue.length then some .busy
      else none := by
  simp [arrivalRefusal, indexOf_val w.terminal tn hb]

theorem arrivalRefusal_vacant (hb : w.terminal.toNat = tn.val) (hv : (s.term tn).state = .vacant) :
    arrivalRefusal s i w = some .terminalVacant := by
  rw [arrivalRefusal_terminal hb, if_pos hv]

theorem arrivalRefusal_lane (hb : w.terminal.toNat = tn.val) (hv : (s.term tn).state ≠ .vacant)
    (hl : (s.term tn).lane ≠ i) : arrivalRefusal s i w = some .wrongLane := by
  rw [arrivalRefusal_terminal hb, if_neg hv, if_pos hl]

/-- On a terminal of the lane the card decides, then the room in the queue (R60). -/
theorem arrivalRefusal_card (hb : w.terminal.toNat = tn.val) (hv : (s.term tn).state ≠ .vacant)
    (hl : (s.term tn).lane = i) :
    arrivalRefusal s i w =
      if w.declared < 8 ∨ 64 < w.declared then some .cardLength
      else if w.card.length < w.declared then some .cardShort
      else if w.declared < w.card.length then some .cardLong
      else if Config.intakeLimit ≤ (s.lane i).queue.length then some .busy
      else none := by
  rw [arrivalRefusal_terminal hb, if_neg hv, if_neg (not_not.mpr hl)]

/-- A card as long as declared, within 8 to 64 bytes: only the queue can refuse (R60). -/
theorem arrivalRefusal_queue (hb : w.terminal.toNat = tn.val) (hv : (s.term tn).state ≠ .vacant)
    (hl : (s.term tn).lane = i) (h8 : 8 ≤ w.declared) (h64 : w.declared ≤ 64) (hc : w.card.length = w.declared) :
    arrivalRefusal s i w = if Config.intakeLimit ≤ (s.lane i).queue.length then some .busy else none := by
  rw [arrivalRefusal_card hb hv hl, if_neg (by omega), if_neg (by omega), if_neg (by omega)]

variable {kind : WrapKind} {corr : Byte} {p : List Byte}

theorem wrapRequestAct_notRunning (hp : s.status.part ≠ .running) :
    wrapRequestAct kind i corr p s = s.answer (.lane i) corr .notRunning :=
  if_neg hp

theorem wrapRequestAct_short (hp : s.status.part = .running) (hw : parseWrap p = none) :
    wrapRequestAct kind i corr p s = s.answer (.lane i) corr .cardShort := by
  simp [wrapRequestAct, hp, hw]

theorem wrapRequestAct_refused {code : Code} (hp : s.status.part = .running) (hw : parseWrap p = some w)
    (hr : arrivalRefusal s i w = some code) : wrapRequestAct kind i corr p s = s.answer (.lane i) corr code := by
  simp [wrapRequestAct, hp, hw, hr]

theorem wrapRequestAct_queued (hp : s.status.part = .running) (hw : parseWrap p = some w)
    (hr : arrivalRefusal s i w = none) :
    wrapRequestAct kind i corr p s = s.setLane i ((s.lane i).push (w.request kind i corr)) := by
  simp [wrapRequestAct, hp, hw, hr]

end

/-- The seven middle bytes: a digit count and packed digits, or the till sequence of the original (R175). -/
theorem wrapFields_item (t s1 s0 a b c d e f g n : Byte) (card : List Byte) :
    (wrapFields t s1 s0 a b c d e f g n card).item .auth = .auth a.toNat (nibblesOf [b, c, d, e, f, g]) ∧
    (wrapFields t s1 s0 a b c d e f g n card).item .refund = .refund a.toNat (nibblesOf [b, c, d, e, f, g]) ∧
    (wrapFields t s1 s0 a b c d e f g n card).item .reversal = .reversal (numberOf [a, b]) := by
  have hcount : numberOf [a] = a.toNat := by simp [numberOf]
  refine ⟨?_, ?_, rfl⟩
  · rw [← hcount]
    rfl
  · rw [← hcount]
    rfl

theorem wrapFields_request {t s1 s0 a b c d e f g n : Byte} {card : List Byte} {tn : TerminalNo} (hb : t.toNat = tn.val)
    (kind : WrapKind) (i : LaneNo) (corr : Byte) :
    (wrapFields t s1 s0 a b c d e f g n card).request kind i corr =
      ⟨i, corr, (wrapFields t s1 s0 a b c d e f g n card).item kind, tn, numberOf [s1, s0], card⟩ := by
  simp [WrapBytes.request, WrapBytes.terminalNo, wrapFields, indexOf_val t tn hb]

/-- Settles O11: with every check of R60 passed the request is the one its payload spells, at the back of its queue. -/
theorem wrapRequestsQueued : Obligations.WrapRequestsQueued := by
  intro i corr t s1 s0 a b c d e f g n card tn s
  dsimp only
  intro hh hp hb hv hl h8 h64 hc hroom
  have hnone : arrivalRefusal s i (wrapFields t s1 s0 a b c d e f g n card) = none := by
    rw [arrivalRefusal_queue (tn := tn) hb hv hl h8 h64 hc]
    exact if_neg (Nat.not_le.mpr hroom)
  have hqueued := fun kind => wrapRequestAct_queued (kind := kind) (corr := corr) hp
    (parseWrap_wrapPayload t s1 s0 a b c d e f g n card) hnone
  simp only [wrapFields_request hb, Lane.push] at hqueued
  obtain ⟨hauth, hrefund, hreversal⟩ := wrapFields_item t s1 s0 a b c d e f g n card
  obtain ⟨eauth, erefund, ereversal⟩ := exec_wrapRequest hh corr
  rw [eauth, erefund, ereversal, hqueued, hqueued, hqueued, hauth, hrefund, hreversal]
  exact ⟨rfl, rfl, rfl⟩

/-- Settles O12, check by check in the order of R60; the three kinds of request differ in none of them. -/
theorem arrivalRefusals : Obligations.ArrivalRefusals := by
  intro mk hmk i corr p s
  dsimp only
  intro hh
  have hexec : ∃ kind, exec (mk (.lane i) corr p) s = .next (wrapRequestAct kind i corr p s) := by
    obtain ⟨eauth, erefund, ereversal⟩ := exec_wrapRequest hh corr
    simp only [List.mem_cons, List.not_mem_nil, or_false] at hmk
    rcases hmk with rfl | rfl | rfl
    · exact ⟨_, eauth⟩
    · exact ⟨_, erefund⟩
    · exact ⟨_, ereversal⟩
  obtain ⟨kind, he⟩ := hexec
  rw [he]
  refine ⟨fun hp => by rw [wrapRequestAct_notRunning hp],
    fun hp => ⟨fun hs => by rw [wrapRequestAct_short hp (parseWrap_short hs)], ?_⟩⟩
  rintro t s1 s0 a b c d e f g n card rfl
  have hrefused : ∀ {code}, arrivalRefusal s i (wrapFields t s1 s0 a b c d e f g n card) = some code →
      Host.Outcome.next (wrapRequestAct kind i corr (wrapPayload t s1 s0 a b c d e f g n card) s) =
        (.next (s.answer (.lane i) corr code) : Host.Outcome State Fault Refusal) := fun hr =>
    congrArg _ (wrapRequestAct_refused hp (parseWrap_wrapPayload t s1 s0 a b c d e f g n card) hr)
  refine ⟨fun h64 => hrefused (arrivalRefusal_range h64), fun tn hb => ⟨fun hv => hrefused (arrivalRefusal_vacant hb hv),
    fun hv => ⟨fun hl => hrefused (arrivalRefusal_lane hb hv hl), fun hl => ⟨fun hout => hrefused ?_, fun h8 h64 =>
      ⟨fun hshort => hrefused ?_, fun hlong => hrefused ?_, fun hc hfull => hrefused ?_⟩⟩⟩⟩⟩
  · rw [arrivalRefusal_card hb hv hl]
    exact if_pos hout
  · rw [arrivalRefusal_card hb hv hl, if_neg (by simp only [wrapFields]; omega)]
    exact if_pos hshort
  · rw [arrivalRefusal_card hb hv hl, if_neg (by simp only [wrapFields]; omega),
      if_neg (by simp only [wrapFields]; omega)]
    exact if_pos hlong
  · rw [arrivalRefusal_queue hb hv hl h8 h64 hc]
    exact if_pos hfull

/-! ### HOLD LANE, RELEASE LANE and SET CEILING (R46, R69) -/

section

variable {l : LinkId} {corr b : Byte} {s : State}

theorem exec_laneHold_heard (h : s.Hears l 1) (hl : isPartner l = true) :
    exec (.holdLane l corr [b]) s = .next (laneHoldAct true l corr b s) ∧
    exec (.releaseLane l corr [b]) s = .next (laneHoldAct false l corr b s) :=
  ⟨congrArg Host.Outcome.next (request_taken (parse := parseByte) (p := [b]) h (linkRing_of_isPartner hl) rfl),
    congrArg Host.Outcome.next (request_taken (parse := parseByte) (p := [b]) h (linkRing_of_isPartner hl) rfl)⟩

theorem laneHoldAct_taken {i : LaneNo} (held : Bool) (hp : s.status.part = .running) (hb : b.toNat = i.val) :
    laneHoldAct held l corr b s =
      (s.setLane i { s.lane i with held := held }).answer l corr .done (.hold held (s.lane i).queue.length) := by
  simp [laneHoldAct, hp, indexOf_val b i hb]

theorem laneHoldAct_range (held : Bool) (hp : s.status.part = .running) (hb : 4 ≤ b.toNat) :
    laneHoldAct held l corr b s = s.answer l corr .badParameter := by
  simp [laneHoldAct, hp, indexOf_none b hb]

theorem exec_setCeiling_heard {digits : List Byte} (h : s.Hears l 7) (hl : isPartner l = true) (hd : digits.length = 6) :
    exec (.setCeiling l corr (b :: digits)) s = .next (setCeilingAct l corr b digits s) := by
  obtain ⟨d1, d2, d3, d4, d5, d6, rfl⟩ := six_bytes hd
  exact congrArg Host.Outcome.next (request_taken (parse := parsePacked) (p := [b, d1, d2, d3, d4, d5, d6]) h
    (linkRing_of_isPartner hl) rfl)

/-- SET CEILING of a route number and digits in range: the route decides (R46). -/
theorem setCeilingAct_taken {digits : List Byte} {r : RouteNo} {v : Nat} (hp : s.status.part = .running)
    (hb : b.toNat = r.val) (hv : packedOf digits = some v) :
    setCeilingAct l corr b digits s =
      if s.defined r then (s.setAccount r { s.account r with pending := v }).answer l corr .done
      else s.answer l corr .routeUndefined := by
  simp [setCeilingAct, hp, indexOf_val b r hb, hv]

theorem setCeilingAct_range {digits : List Byte} (hp : s.status.part = .running)
    (h : indexOf 4 b = none ∨ packedOf digits = none) :
    setCeilingAct l corr b digits s = s.answer l corr .badParameter := by
  unfold setCeilingAct
  rw [if_pos hp]
  split
  · next hr hv => rcases h with h | h <;> simp_all
  · rfl

end

/-- Settles O13: each command through its checks, in their order (R46, R69). -/
theorem holdsAndCeilings : Obligations.HoldsAndCeilings := by
  refine ⟨fun l corr b s h hl hp => ?_, fun l corr b digits v r s h hl hp hd hb hv => ?_,
    fun l corr b digits s h hl hp hd hout => ?_⟩
  · obtain ⟨ehold, erelease⟩ := exec_laneHold_heard (corr := corr) (b := b) h hl
    rw [ehold, erelease]
    exact ⟨fun i hb => ⟨congrArg _ (laneHoldAct_taken true hp hb), congrArg _ (laneHoldAct_taken false hp hb)⟩,
      fun hb => ⟨congrArg _ (laneHoldAct_range true hp hb), congrArg _ (laneHoldAct_range false hp hb)⟩⟩
  · rw [exec_setCeiling_heard h hl hd, setCeilingAct_taken hp hb hv]
    exact ⟨fun hdef => by rw [if_pos hdef], fun hdef => by rw [if_neg (by simp [hdef])]⟩
  · rw [exec_setCeiling_heard h hl hd, setCeilingAct_range hp (hout.imp (indexOf_none b) packedOf_eq_none)]

/-! ### Heads (R62, R64) -/

/-- The model's test of condition 4 of R64 says what `FamilyWaits` says. -/
theorem familyBlocks_iff (s : State) (q : Request) : s.familyBlocks q.terminal = true ↔ FamilyWaits s q := by
  simp [State.familyBlocks, FamilyRecord.working, FamilyWaits]

section

variable {s : State} {i : LaneNo} {q : Request} {rest : List Request}

theorem headState_noHead (h : (s.lane i).queue = []) : s.headState i = .noHead := by
  simp [State.headState, h]

/-- The head state of a lane with a head: its hold, then condition 4 of R64 (R62). -/
theorem headState_head (h : (s.lane i).queue = q :: rest) :
    s.headState i = if (s.lane i).held then .laneHeld else if s.familyBlocks q.terminal then .familyBusy else .eligible := by
  simp [State.headState, h]

theorem headState_held (h : (s.lane i).queue = q :: rest) (hh : (s.lane i).held = true) : s.headState i = .laneHeld := by
  rw [headState_head h, if_pos hh]

theorem headState_busy (h : (s.lane i).queue = q :: rest) (hh : (s.lane i).held = false) (hw : FamilyWaits s q) :
    s.headState i = .familyBusy := by
  rw [headState_head h, if_neg (by simp [hh]), if_pos ((familyBlocks_iff s q).mpr hw)]

theorem headState_free (h : (s.lane i).queue = q :: rest) (hh : (s.lane i).held = false) (hw : ¬ FamilyWaits s q) :
    s.headState i = .eligible := by
  rw [headState_head h, if_neg (by simp [hh]), if_neg (mt (familyBlocks_iff s q).mp hw)]

end

theorem headState_eligible_iff (s : State) (i : LaneNo) : s.headState i = .eligible ↔
    (s.lane i).held = false ∧ ∃ q rest, (s.lane i).queue = q :: rest ∧ ¬ FamilyWaits s q := by
  constructor
  · intro h
    cases hq : (s.lane i).queue with
    | nil =>
      rw [headState_noHead hq] at h
      cases h
    | cons q rest =>
      cases hh : (s.lane i).held with
      | true =>
        rw [headState_held hq hh] at h
        cases h
      | false =>
        refine ⟨rfl, q, rest, rfl, fun hw => ?_⟩
        rw [headState_busy hq hh hw] at h
        cases h
  · rintro ⟨hh, q, rest, hq, hw⟩
    exact headState_free hq hh hw

/-! ### The queries (R12, R36, R62, R100, R170) -/

/-- The counts of ROUTE QUERY are those of the route's data records (R100, log 16). -/
theorem countIn_eq (s : State) (r : RouteNo) (st : RecordState) : s.countIn r st = recordsIn s r st :=
  rfl

/-- ROUTE QUERY reports the items named for it (R100, R115, R170). -/
theorem routeReport_eq {s : State} {r : RouteNo} {c : RouteConfig} (hc : s.config r = some c) :
    s.routeReport r c = reportedRoute s r c := by
  have hlow : s.ringLow r = decide (s.ringRoom r ≤ c.highWater) := by simp [State.ringLow, hc]
  simp only [State.routeReport, reportedRoute, State.queueReport, countIn_eq, hlow]
  rfl

/-- The terminals that FAMILY QUERY counts (R36). -/
theorem terminalsOn_eq (s : State) (f : FamilyNo) : s.terminalsOn f =
    (List.finRange 64).countP fun t => decide ((s.term t).state ≠ .vacant ∧ (s.term t).family = f) := by
  refine List.countP_congr fun t _ => ?_
  simp

section

variable {l : LinkId} {corr b : Byte} {s : State}

theorem exec_query_heard (h : s.Hears l 1) (hl : isPartner l = true) :
    exec (.terminalQuery l corr [b]) s = .next (terminalQueryAct l corr b s) ∧
    exec (.familyQuery l corr [b]) s = .next (familyQueryAct l corr b s) ∧
    exec (.routeQuery l corr [b]) s = .next (routeQueryAct l corr b s) := by
  have hring := linkRing_of_isPartner hl
  exact ⟨congrArg Host.Outcome.next (request_taken (parse := parseByte) (p := [b]) h hring rfl),
    congrArg Host.Outcome.next (request_taken (parse := parseByte) (p := [b]) h hring rfl),
    congrArg Host.Outcome.next (request_taken (parse := parseByte) (p := [b]) h hring rfl)⟩

theorem terminalQueryAct_taken {t : TerminalNo} (hb : b.toNat = t.val) :
    terminalQueryAct l corr b s = s.answer l corr .done (.terminal (s.term t) (s.engine.servesTerminal t)) := by
  simp [terminalQueryAct, indexOf_val b t hb]

theorem terminalQueryAct_range (hb : 64 ≤ b.toNat) : terminalQueryAct l corr b s = s.answer l corr .terminalRange := by
  simp [terminalQueryAct, indexOf_none b hb]

theorem familyQueryAct_taken {f : FamilyNo} (hb : b.toNat = f.val) :
    familyQueryAct l corr b s = s.answer l corr .done (.family (s.familyReport f)) := by
  simp [familyQueryAct, indexOf_val b f hb]

theorem familyQueryAct_range (hb : 8 ≤ b.toNat) : familyQueryAct l corr b s = s.answer l corr .badParameter := by
  simp [familyQueryAct, indexOf_none b hb]

theorem routeQueryAct_taken {r : RouteNo} {c : RouteConfig} (hb : b.toNat = r.val) (hc : s.config r = some c) :
    routeQueryAct l corr b s = s.answer l corr .done (.route (reportedRoute s r c)) := by
  simp [routeQueryAct, indexOf_val b r hb, hc, routeReport_eq hc]

theorem routeQueryAct_undefined {r : RouteNo} (hb : b.toNat = r.val) (hc : s.config r = none) :
    routeQueryAct l corr b s = s.answer l corr .routeUndefined := by
  simp [routeQueryAct, indexOf_val b r hb, hc]

theorem routeQueryAct_range (hb : 4 ≤ b.toNat) : routeQueryAct l corr b s = s.answer l corr .badParameter := by
  simp [routeQueryAct, indexOf_none b hb]

end

/-- The wrap in flight serves its own lane, terminal, family and route, an IDLE engine none (R75). -/
theorem serves_iff (k : ReservationKept) (w : ReservationWork) (i : LaneNo) (t : TerminalNo) (f : FamilyNo) (r : RouteNo) :
    ((Engine.busy k w).servesLane i = true ↔ w.lane = i) ∧ ((Engine.busy k w).servesTerminal t = true ↔ w.terminal = t) ∧
    ((Engine.busy k w).servesFamily f = true ↔ k.key.family = f) ∧ ((Engine.busy k w).servesRoute r = true ↔ k.route = r) ∧
    Engine.idle.servesLane i = false ∧ Engine.idle.servesTerminal t = false ∧ Engine.idle.servesFamily f = false ∧
    Engine.idle.servesRoute r = false :=
  ⟨beq_iff_eq, beq_iff_eq, beq_iff_eq, beq_iff_eq, rfl, rfl, rfl, rfl⟩

/-- Settles O14: the answer's place, what the engine serves, the head state, then each query through its checks. -/
theorem queriesOnlyAnswer : Obligations.QueriesOnlyAnswer := by
  refine ⟨fun _ _ _ _ _ => rfl, fun _ _ _ _ => ⟨rfl, rfl, rfl⟩, serves_iff,
    fun s i => ⟨headState_noHead, fun q rest hq => ⟨headState_held hq, headState_busy hq, headState_free hq⟩⟩,
    fun i corr p s h => congrArg Host.Outcome.next (laneRequest_taken h), fun l corr b s h hl => ?_⟩
  obtain ⟨eterminal, efamily, eroute⟩ := exec_query_heard (corr := corr) (b := b) h hl
  rw [eterminal, efamily, eroute]
  refine ⟨fun t hb => congrArg _ (terminalQueryAct_taken hb), fun f hb => ?_,
    fun r c hb hc => congrArg _ (routeQueryAct_taken hb hc), fun r hb hc => congrArg _ (routeQueryAct_undefined hb hc),
    fun hb => congrArg _ (terminalQueryAct_range hb), fun hb => congrArg _ (familyQueryAct_range hb),
    fun hb => congrArg _ (routeQueryAct_range hb)⟩
  rw [familyQueryAct_taken hb, State.familyReport, terminalsOn_eq]

/-! ### The choice of a head (R64 to R66) -/

/-- A head is eligible by the four conditions of R64. -/
theorem eligible_iff (s : State) (i : LaneNo) : s.eligible i = true ↔
    (s.lane i).held = false ∧ s.engine = .idle ∧ s.cutover.stage = .idle ∧ s.status.part = .running ∧
      ∃ q rest, (s.lane i).queue = q :: rest ∧ ¬ FamilyWaits s q := by
  have hidle : s.engine.isIdle = true ↔ s.engine = .idle := by cases s.engine <;> simp [Engine.isIdle]
  simp only [State.eligible, State.grantsOpen, Bool.and_eq_true, beq_iff_eq, hidle, headState_eligible_iff]
  constructor
  · rintro ⟨⟨⟨he, hc⟩, hp⟩, hh, hq⟩
    exact ⟨hh, he, hc, hp, hq⟩
  · rintro ⟨hh, he, hc, hp, hq⟩
    exact ⟨⟨⟨he, hc⟩, hp⟩, hh, hq⟩

theorem urgent_iff (q : Request) : q.urgent = true ↔ ∃ original, q.item = .reversal original := by
  unfold Request.urgent
  cases q.item <;> simp

/-- A head is urgent exactly when it is a REVERSAL (R59). -/
theorem urgentHead_iff (s : State) (i : LaneNo) : s.urgentHead i = true ↔
    ∃ q rest original, (s.lane i).queue = q :: rest ∧ q.item = .reversal original := by
  unfold State.urgentHead
  cases hq : (s.lane i).queue with
  | nil => simp
  | cons q rest =>
    constructor
    · intro h
      obtain ⟨original, ho⟩ := (urgent_iff q).mp h
      exact ⟨q, rest, original, rfl, ho⟩
    · rintro ⟨q', rest', original, he, ho⟩
      cases he
      exact (urgent_iff q).mpr ⟨original, ho⟩

/-- The search after a pointer meets every lane (R66). -/
theorem mem_rotationFrom (p i : Fin 4) : i ∈ rotationFrom p := by
  revert p i
  decide

/-- The search after a pointer meets the lanes in the order of their places (R66). -/
theorem rotationFrom_ordered (p : Fin 4) : (rotationFrom p).Pairwise fun i j => searchPlace p i < searchPlace p j := by
  revert p
  decide

/-- The lane that a search finds stands first in rotation order among those it searches for (R66). -/
theorem rotation_first {p i j : Fin 4} {f : Fin 4 → Bool} (h : (rotationFrom p).find? f = some i) (hj : f j = true)
    (hne : j ≠ i) : searchPlace p i < searchPlace p j := by
  obtain ⟨-, before, after, hsplit, hbefore⟩ := List.find?_eq_some_iff_append.mp h
  have hordered := rotationFrom_ordered p
  have hmem := mem_rotationFrom p j
  rw [hsplit] at hordered hmem
  have hafter : j ∈ after := by
    rcases List.mem_append.mp hmem with hb | ha
    · have hskipped := hbefore j hb
      simp [hj] at hskipped
    · exact (List.mem_cons.mp ha).resolve_left hne
  exact (List.pairwise_cons.mp (List.pairwise_append.mp hordered).2.1).1 j hafter

/-- The two searches of a grant: an urgent eligible head, and failing that any eligible head (R65, R66). -/
theorem grantLane_eq (s : State) : s.grantLane =
    ((rotationFrom s.intake.rotation).find? fun i => s.eligible i && s.urgentHead i).or
      ((rotationFrom s.intake.rotation).find? fun i => s.eligible i) := by
  unfold State.grantLane
  dsimp only
  simp only [List.find?_filter, List.head?_filter, Bool.decide_and, Bool.decide_eq_true]
  cases (rotationFrom s.intake.rotation).find? fun i => s.eligible i && s.urgentHead i <;> rfl

/-- The outcomes of a grant's searches: an urgent eligible head, an eligible head where none is urgent, or none (R65,
R66). -/
theorem grantLane_cases (s : State) :
    (∃ i, s.grantLane = some i ∧
      ((rotationFrom s.intake.rotation).find? fun i => s.eligible i && s.urgentHead i) = some i) ∨
    (∃ i, s.grantLane = some i ∧ (∀ j, s.eligible j = true → s.urgentHead j = false) ∧
      ((rotationFrom s.intake.rotation).find? fun i => s.eligible i) = some i) ∨
    (s.grantLane = none ∧ ∀ j, s.eligible j = false) := by
  rw [grantLane_eq]
  cases hu : (rotationFrom s.intake.rotation).find? fun i => s.eligible i && s.urgentHead i with
  | some i => exact Or.inl ⟨i, rfl, rfl⟩
  | none =>
    cases he : (rotationFrom s.intake.rotation).find? fun i => s.eligible i with
    | some i =>
      refine Or.inr (Or.inl ⟨i, rfl, fun j hj => ?_, rfl⟩)
      simpa [hj] using List.find?_eq_none.mp hu j (mem_rotationFrom _ j)
    | none =>
      refine Or.inr (Or.inr ⟨rfl, fun j => ?_⟩)
      simpa using List.find?_eq_none.mp he j (mem_rotationFrom _ j)

/-- The lane granted: urgent where any eligible head is, and the first of its class in rotation order (R65, R66). -/
theorem grantLane_first {s : State} {i : LaneNo} (h : s.grantLane = some i) :
    ((∃ j, s.eligible j = true ∧ s.urgentHead j = true) → s.urgentHead i = true) ∧
    ∀ j, s.eligible j = true → s.urgentHead j = s.urgentHead i → j ≠ i →
      searchPlace s.intake.rotation i < searchPlace s.intake.rotation j := by
  rcases grantLane_cases s with ⟨k, hk, hfind⟩ | ⟨k, hk, hnormal, hfind⟩ | ⟨hk, -⟩ <;> rw [hk] at h <;> cases h
  · have hfound : (s.eligible i && s.urgentHead i) = true :=
      List.find?_some (p := fun i => s.eligible i && s.urgentHead i) hfind
    have hurgent : s.urgentHead i = true := (Bool.and_eq_true_iff.mp hfound).2
    refine ⟨fun _ => hurgent, fun j hj hclass hne => rotation_first hfind ?_ hne⟩
    rw [hj, hclass, hurgent, Bool.and_self]
  · refine ⟨?_, fun j hj _ hne => rotation_first hfind hj hne⟩
    rintro ⟨j, hj, hu⟩
    exact absurd hu (by simp [hnormal j hj])

theorem grantLane_eq_none_iff (s : State) : s.grantLane = none ↔ ∀ j, s.eligible j = false := by
  constructor
  · intro h
    rcases grantLane_cases s with ⟨k, hk, -⟩ | ⟨k, hk, -⟩ | ⟨-, hnone⟩
    · simp [hk] at h
    · simp [hk] at h
    · exact hnone
  · intro h
    cases hg : s.grantLane with
    | none => rfl
    | some i => exact absurd (grantLane_eligible hg) (by simp [h i])

/-- GRANT without an eligible head changes nothing (R65). -/
theorem exec_grant_none {s : State} (h : s.grantLane = none) : exec .grant s = .next s := by
  refine congrArg Host.Outcome.next ?_
  rw [h]
  exact ite_self s

/-- Settles O15: eligibility by its conditions, urgency by the head's kind, the lane by the two searches. -/
theorem grantOrder : Obligations.GrantOrder :=
  ⟨eligible_iff, urgentHead_iff, fun _ _ h => ⟨grantLane_eligible h, grantLane_first h⟩, grantLane_eq_none_iff,
    fun _ => exec_grant_none⟩

end Sys2Proof.Machine
end

section
/-! The wrap operation (05_the_wrap_operation.md, R75 to R92): what a granted head comes to, the grant checks one by one in
their order, the reservation, the withdrawal, and the completion with the close that falls due at it. -/

namespace Sys2Proof.Machine

/-! ### A granted head (R65 to R67, R84) -/

section

variable {s : State} {i : LaneNo} {q : Request} {rest : List Request}

theorem granted_eq_grantedIntake (hq : (s.lane i).queue = q :: rest) :
    { s with intake := s.intake.granted i } = grantedIntake s i rest := by
  have htail : (s.lane i).queue.tail = rest := by rw [hq, List.tail_cons]
  rw [← htail]
  rfl

/-- GRANT takes the head and carries out the outcome of its checks, which read nothing of the intake (R67, R76). -/
theorem exec_grant_taken (hon : s.supply = .on) (hg : s.grantLane = some i) (hq : (s.lane i).queue = q :: rest) :
    exec .grant s = .next ((grantedIntake s i rest).settleGrant q (s.grantChecks q)) := by
  have hhead : exec .grant s = .next (s.grantHead i q) := by
    refine congrArg Host.Outcome.next ?_
    simp only [awake_of_on hon, hg, hq, if_true]
  rw [hhead, ← granted_eq_grantedIntake hq]
  rfl

end

/-- Settles O16: a refusal and a DUPLICATE are each one answer on the state with the head taken. -/
theorem grantRefusals : Obligations.GrantRefusals := by
  intro s i q rest hon hg hq
  rw [exec_grant_taken hon hg hq]
  refine ⟨fun code hc => ?_, fun h hc => ?_⟩
  · rw [hc]
    rfl
  · rw [hc]
    rfl

/-! ### Room (R100) -/

section

variable {e : Engine} {k : ReservationKept} {r : RouteNo} {pos : Nat}

theorem holdsLive_of_live (w : ReservationWork) (h : k.slot = .live pos) : (Engine.busy k w).holdsLive k.route = 1 := by
  obtain ⟨route, batch, slot, key⟩ := k
  dsimp only at h
  subst h
  exact if_pos rfl

theorem holdsRing_of_store (w : ReservationWork) (h : k.slot = .store pos) : (Engine.busy k w).holdsRing k.route = 1 := by
  obtain ⟨route, batch, slot, key⟩ := k
  dsimp only at h
  subst h
  exact if_pos rfl

theorem holdsLive_eq_zero (h : ∀ k w pos, e = .busy k w → k.route = r → k.slot ≠ .live pos) : e.holdsLive r = 0 := by
  unfold Engine.holdsLive
  split
  · next pos _ _ => exact if_neg fun hr => h _ _ pos rfl hr rfl
  · rfl

theorem holdsRing_eq_zero (h : ∀ k w pos, e = .busy k w → k.route = r → k.slot ≠ .store pos) : e.holdsRing r = 0 := by
  unfold Engine.holdsRing
  split
  · next pos _ _ => exact if_neg fun hr => h _ _ pos rfl hr rfl
  · rfl

end

/-- Live room is the live ring's size less its occupancy less the place reserved (R100). -/
theorem liveRoom_eq (s : State) (r : RouteNo) :
    s.liveRoom r = 16 - ((s.queue r).live.bottom - (s.queue r).live.top) - s.engine.holdsLive r := rfl

/-- Ring room is the store ring's size less its occupancy less the place reserved (R100). -/
theorem ringRoom_eq {s : State} {r : RouteNo} {c : RouteConfig} (hc : s.config r = some c) :
    s.ringRoom r = 2 ^ c.k - ((s.queue r).store.bottom - (s.queue r).store.top) - s.engine.holdsRing r := by
  rw [State.ringRoom, hc]
  rfl

theorem storeRoom_ring {s : State} {r : RouteNo} (ho : (s.queue r).overflow = []) :
    s.storeRoom r = s.ringRoom r + (if mayPool (s.config r) = true then s.qm.poolFree.length else 0) := by
  simp [State.storeRoom, ho]

theorem storeRoom_pool {s : State} {r : RouteNo} (ho : (s.queue r).overflow ≠ []) :
    s.storeRoom r = s.qm.poolFree.length := by
  simp [State.storeRoom, ho]

/-- The three rooms of a route, with and without a place reserved (R100). -/
theorem roomComputed (s : State) (r : RouteNo) : RoomComputed s r := by
  refine ⟨fun k w pos he hr hslot => ?_, fun hfree => ?_, fun c hc => ⟨fun k w pos he hr hslot => ?_, fun hfree => ?_,
    fun ho => ?_, storeRoom_pool⟩⟩
  · subst hr
    rw [liveRoom_eq, he, holdsLive_of_live w hslot]
  · rw [liveRoom_eq, holdsLive_eq_zero hfree, Nat.sub_zero]
  · subst hr
    rw [ringRoom_eq hc, he, holdsRing_of_store w hslot]
  · rw [ringRoom_eq hc, holdsRing_eq_zero hfree, Nat.sub_zero]
  · rw [storeRoom_ring ho, hc]
    rfl

/-! ### The first two checks (R76, R77) -/

section

variable {s : State} {q : Request}

theorem grantChecks_vacant (h : (s.term q.terminal).state = .vacant) : s.grantChecks q = .refused .terminalVacant := by
  simp [State.grantChecks, h]

theorem grantChecks_held (h : (s.term q.terminal).state = .held) : s.grantChecks q = .refused .terminalHeld := by
  simp [State.grantChecks, h]

theorem grantChecks_closing (h : (s.term q.terminal).state = .closing) : s.grantChecks q = .refused .terminalClosing := by
  simp [State.grantChecks, h]

theorem grantChecks_duplicate {h : HistoryEntry} (ha : (s.term q.terminal).state = .active)
    (hf : (s.term q.terminal).history.find? (fun x => x.till == q.till) = some h) : s.grantChecks q = .duplicate h := by
  simp [State.grantChecks, ha, hf]

/-- A new till sequence of an ACTIVE terminal goes on to the checks of its kind (R78, R79). -/
theorem grantChecks_item (ha : (s.term q.terminal).state = .active)
    (hf : (s.term q.terminal).history.find? (fun x => x.till == q.till) = none) :
    s.grantChecks q = s.itemChecks (s.term q.terminal) q.item := by
  simp [State.grantChecks, ha, hf]

end

/-! ### Check 3: the original of a REVERSAL (R78) -/

section

variable {history : List HistoryEntry} {till batch : Nat} {h : HistoryEntry}

theorem findOriginal_notFound (hf : history.find? (fun x => x.till == till) = none) :
    findOriginal history till batch = .error .notFound := by
  simp [findOriginal, hf]

theorem findOriginal_notReversible (hf : history.find? (fun x => x.till == till) = some h) (hk : h.kind ≠ .auth) :
    findOriginal history till batch = .error .notReversible := by
  simp [findOriginal, hf, hk]

theorem findOriginal_reversed (hf : history.find? (fun x => x.till == till) = some h) (hk : h.kind = .auth)
    (hr : h.reversed = true ∨ h.disposition = .voided) : findOriginal history till batch = .error .alreadyReversed := by
  simp [findOriginal, hf, hk, hr]

theorem findOriginal_stale (hf : history.find? (fun x => x.till == till) = some h) (hk : h.kind = .auth)
    (hr : h.reversed = false) (hv : h.disposition ≠ .voided) (hb : h.id.batch ≠ batch) :
    findOriginal history till batch = .error .stale := by
  simp [findOriginal, hf, hk, hr, hv, hb]

theorem findOriginal_ok (hf : history.find? (fun x => x.till == till) = some h) (hk : h.kind = .auth)
    (hr : h.reversed = false) (hv : h.disposition ≠ .voided) (hb : h.id.batch = batch) :
    findOriginal history till batch = .ok h := by
  simp [findOriginal, hf, hk, hr, hv, hb]

end

section

variable {s : State} {e : Terminal} {original : Nat} {h : HistoryEntry}

theorem itemChecks_reversal_refused {code : Code}
    (hf : findOriginal e.history original (s.queue e.route).batch = .error code) :
    s.itemChecks e (.reversal original) = .refused code := by
  simp [State.itemChecks, hf]

theorem itemChecks_reversal_pending (hf : findOriginal e.history original (s.queue e.route).batch = .ok h)
    (hd : h.disposition = .pending) : s.itemChecks e (.reversal original) = .withdraw h := by
  simp [State.itemChecks, hf, hd]

theorem itemChecks_reversal_later (hf : findOriginal e.history original (s.queue e.route).batch = .ok h)
    (hd : h.disposition ≠ .pending) :
    s.itemChecks e (.reversal original) = s.laterChecks e .reversal h.amount (some ⟨h.id, h.till⟩) := by
  simp [State.itemChecks, hf, hd]

end

/-! ### Check 4: the amount of an AUTH or REFUND (R79) -/

section

variable {s : State} {e : Terminal} {kind : WrapKind} {count : Nat} {nibbles : List Nat} {c : RouteConfig}

theorem itemChecks_amount {item : WrapItem}
    (h : (item = .auth count nibbles ∧ kind = .auth) ∨ (item = .refund count nibbles ∧ kind = .refund)) :
    s.itemChecks e item = s.amountChecks e kind count nibbles := by
  rcases h with ⟨rfl, rfl⟩ | ⟨rfl, rfl⟩ <;> rfl

theorem amountChecks_refused {code : Code} (hc : s.config e.route = some c)
    (ha : amountCheck count nibbles e.fraction c = .error code) : s.amountChecks e kind count nibbles = .refused code := by
  simp [State.amountChecks, hc, ha]

theorem amountChecks_later {a : Nat} (hc : s.config e.route = some c) (ha : amountCheck count nibbles e.fraction c = .ok a) :
    s.amountChecks e kind count nibbles = s.laterChecks e kind a none := by
  simp [State.amountChecks, hc, ha]

/-- On a route that is not defined the field's form alone is tested (log 22). -/
theorem amountChecks_format (hc : s.config e.route = none) (hv : amountValue count nibbles = none) :
    s.amountChecks e kind count nibbles = .refused .amountFormat := by
  simp [State.amountChecks, hc, hv]

theorem amountChecks_undefined {v : Nat} (hc : s.config e.route = none) (hv : amountValue count nibbles = some v) :
    s.amountChecks e kind count nibbles = .refused .routeUndefined := by
  simp [State.amountChecks, hc, hv]

end

/-! ### Check 6: class and offline flag (R45, R81) -/

theorem down_of_ne_up {st : DispatchState} (h : st ≠ .up) : ∃ why, st = .down why := by
  cases st with
  | up => exact absurd rfl h
  | down why => exact ⟨why, rfl⟩

section

variable {st : DispatchState} {a floor : Nat} {acc : RouteAccount}

theorem classOf_auth_down {code : Code} (hst : st ≠ .up) (h : offlineRefusal a floor acc = some code) :
    classOf .auth st a floor acc = .error code := by
  obtain ⟨why, rfl⟩ := down_of_ne_up hst
  simp [classOf, h]

theorem classOf_offline_accepted (hst : st ≠ .up) (hf : a ≤ floor) (hc : acc.offline + a ≤ acc.active) :
    classOf .auth st a floor acc = .ok (.store, true) := by
  obtain ⟨why, rfl⟩ := down_of_ne_up hst
  simp [classOf, offlineRefusal_eq_none.mpr ⟨hf, hc⟩]

theorem classOf_up {kind : WrapKind} (hk : kind ≠ .refund) : classOf kind .up a floor acc = .ok (.live, false) := by
  cases kind with
  | auth => rfl
  | refund => exact absurd rfl hk
  | reversal => rfl

theorem classOf_reversal_down (hst : st ≠ .up) : classOf .reversal st a floor acc = .ok (.store, false) := by
  obtain ⟨why, rfl⟩ := down_of_ne_up hst
  rfl

end

theorem offlineRefusal_floor {a floor : Nat} {acc : RouteAccount} (h : floor < a) :
    offlineRefusal a floor acc = some .routeDown :=
  if_pos h

theorem offlineRefusal_ceiling {a floor : Nat} {acc : RouteAccount} (hf : a ≤ floor) (h : acc.active < acc.offline + a) :
    offlineRefusal a floor acc = some .offlineLimit := by
  simp [offlineRefusal, Nat.not_lt.mpr hf, h]

/-- The class that R81 and R45 give is the one check 6 answers. -/
theorem classOf_decided {s : State} {e : Terminal} {kind : WrapKind} {a : Nat} {cls : RecordClass} {offline : Bool}
    (h : ClassDecided s e kind a cls offline) :
    classOf kind (s.route e.route).state a e.floor (s.account e.route) = .ok (cls, offline) := by
  rcases h with ⟨hk, hup, rfl, rfl⟩ | ⟨rfl, hdown, hfloor, hceiling, rfl, rfl⟩ | ⟨rfl | ⟨rfl, hdown⟩, rfl, rfl⟩
  · rw [hup]
    exact classOf_up hk
  · exact classOf_offline_accepted hdown hfloor hceiling
  · rfl
  · exact classOf_reversal_down hdown

/-! ### Check 7: room and slot (R82, R97, R101) -/

section

variable {s : State} {r : RouteNo}

theorem storeSlot_ring (ho : (s.queue r).overflow = []) (hroom : s.ringRoom r ≠ 0) :
    s.storeSlot r = some (.store (s.queue r).store.bottom) := by
  simp [State.storeSlot, ho, Nat.one_le_iff_ne_zero.mpr hroom]

/-- A record that cannot go to the ring goes to the pool's first free slot, where the route may use the pool (R97, R101). -/
theorem storeSlot_pool (h : (s.queue r).overflow ≠ [] ∨ (s.ringRoom r = 0 ∧ mayPool (s.config r) = true)) :
    s.storeSlot r = s.qm.poolFree.head?.map .pool := by
  rcases h with ho | ⟨hroom, hpool⟩
  · simp [State.storeSlot, ho]
  · simp [State.storeSlot, hroom, hpool]

/-- Without store room there is no slot (R82, R100). -/
theorem storeSlot_none (h : s.storeRoom r = 0) : s.storeSlot r = none := by
  by_cases ho : (s.queue r).overflow = []
  · rw [storeRoom_ring ho, Nat.add_eq_zero_iff] at h
    obtain ⟨hroom, hfree⟩ := h
    cases hpool : mayPool (s.config r) with
    | true =>
      rw [hpool, if_pos rfl] at hfree
      rw [storeSlot_pool (Or.inr ⟨hroom, hpool⟩), List.eq_nil_of_length_eq_zero hfree]
      rfl
    | false => simp [State.storeSlot, ho, hroom, hpool]
  · rw [storeRoom_pool ho] at h
    rw [storeSlot_pool (Or.inl ho), List.eq_nil_of_length_eq_zero h]
    rfl

theorem roomFor_live_full (h : s.liveRoom r = 0) : s.roomFor r .live = .error .liveFull :=
  if_pos h

theorem roomFor_store_full (h : s.storeRoom r = 0) : s.roomFor r .store = .error .storeFull := by
  simp [State.roomFor, storeSlot_none h]

/-- The slot that R82 and R101 give is the one check 7 answers. -/
theorem roomFor_chosen {c : RouteConfig} {cls : RecordClass} {slot : ReservedSlot} (hc : s.config r = some c)
    (h : SlotChosen s r c cls slot) : s.roomFor r cls = .ok slot := by
  have hstore : ∀ {slot}, s.storeSlot r = some slot → s.roomFor r .store = .ok slot := fun hs => by
    simp [State.roomFor, hs]
  rcases h with ⟨rfl, hroom, rfl⟩ | ⟨rfl, ho, hroom, rfl⟩ | ⟨rfl, hpool, n, free, hfree, rfl⟩
  · exact if_neg hroom
  · exact hstore (storeSlot_ring ho hroom)
  · refine hstore ?_
    rw [storeSlot_pool (hpool.imp_right fun ⟨hroom, hallow⟩ => ⟨hroom, by rw [hc]; exact hallow⟩), hfree]
    rfl

end

/-! ### Check 8: the family (R83) -/

theorem familyRefusal_serving {st : FamilyState} (h : st = .active ∨ st = .low) : familyRefusal st = none := by
  rcases h with rfl | rfl <;> rfl

theorem familyRefusal_unavailable {st : FamilyState} (ha : st ≠ .active) (hl : st ≠ .low) (he : st ≠ .exhausted) :
    familyRefusal st = some .keyUnavailable := by
  unfold familyRefusal
  split
  · exact absurd rfl ha
  · exact absurd rfl hl
  · exact absurd rfl he
  · rfl

/-! ### Checks 5 to 8 in their order (R80 to R83) -/

section

variable {s : State} {e : Terminal} {kind : WrapKind} {a : Nat} {ref : Option Reference} {c : RouteConfig} {code : Code}
  {cls : RecordClass} {offline : Bool} {slot : ReservedSlot}

theorem laterChecks_undefined (hc : s.config e.route = none) :
    s.laterChecks e kind a ref = .refused .routeUndefined := by
  simp [State.laterChecks, hc]

theorem laterChecks_full (hc : s.config e.route = some c) (hf : (s.queue e.route).full = true) :
    s.laterChecks e kind a ref = .refused .batchFull := by
  simp [State.laterChecks, hc, hf]

theorem laterChecks_class_refused (hc : s.config e.route = some c) (hf : (s.queue e.route).full = false)
    (hk : classOf kind (s.route e.route).state a e.floor (s.account e.route) = .error code) :
    s.laterChecks e kind a ref = .refused code := by
  simp [State.laterChecks, hc, hf, hk]

theorem laterChecks_room_refused (hc : s.config e.route = some c) (hf : (s.queue e.route).full = false)
    (hk : classOf kind (s.route e.route).state a e.floor (s.account e.route) = .ok (cls, offline))
    (hs : s.roomFor e.route cls = .error code) : s.laterChecks e kind a ref = .refused code := by
  simp [State.laterChecks, hc, hf, hk, hs]

theorem laterChecks_family_refused (hc : s.config e.route = some c) (hf : (s.queue e.route).full = false)
    (hk : classOf kind (s.route e.route).state a e.floor (s.account e.route) = .ok (cls, offline))
    (hs : s.roomFor e.route cls = .ok slot) (hfam : familyRefusal (s.family e.family).now.state = some code) :
    s.laterChecks e kind a ref = .refused code := by
  simp [State.laterChecks, hc, hf, hk, hs, hfam]

theorem laterChecks_passed (hc : s.config e.route = some c) (hf : (s.queue e.route).full = false)
    (hk : classOf kind (s.route e.route).state a e.floor (s.account e.route) = .ok (cls, offline))
    (hs : s.roomFor e.route cls = .ok slot) (hfam : familyRefusal (s.family e.family).now.state = none) :
    s.laterChecks e kind a ref = .wrap ⟨kind, e.route, cls, offline, a, c.fraction, ref, slot, e.family⟩ := by
  simp [State.laterChecks, hc, hf, hk, hs, hfam]

end

/-- A request that passes checks 1 to 4 goes on to the later checks, with its kind, amount and reference (R76 to R79). -/
theorem grantChecks_passesFour {s : State} {q : Request} {kind : WrapKind} {a : Nat} {ref : Option Reference}
    (h : PassesFour s q kind a ref) : s.grantChecks q = s.laterChecks (s.term q.terminal) kind a ref := by
  obtain ⟨hactive, hnew, hitem⟩ := h
  rw [grantChecks_item hactive hnew]
  rcases hitem with ⟨rfl, original, h, hq, hf, hk, hr, hv, hb, hd, rfl, rfl⟩ | ⟨count, nibbles, c, hq, hc, ha, rfl⟩
  · rw [hq]
    exact itemChecks_reversal_later (findOriginal_ok hf hk hr hv hb) hd
  · rw [itemChecks_amount hq]
    exact amountChecks_later hc ha

/-- Settles O17: the rooms, then checks 1 to 4, then checks 5 to 8 of a request that passes them. -/
theorem grantChecksInOrder : Obligations.GrantChecksInOrder := by
  refine ⟨roomComputed, fun s q => ⟨grantChecks_vacant, grantChecks_held, grantChecks_closing,
    fun ha => ⟨fun h hf => grantChecks_duplicate ha hf, fun hnew => ?_⟩⟩, fun s q kind a ref hfour => ?_⟩
  · rw [grantChecks_item ha hnew]
    refine ⟨fun original hq => ?_, fun count nibbles hq => ?_⟩
    · rw [hq]
      exact ⟨fun hf => itemChecks_reversal_refused (findOriginal_notFound hf), fun h hf =>
        ⟨fun hk => itemChecks_reversal_refused (findOriginal_notReversible hf hk),
          fun hk hr => itemChecks_reversal_refused (findOriginal_reversed hf hk hr), fun hk hr hv =>
            ⟨fun hb => itemChecks_reversal_refused (findOriginal_stale hf hk hr hv hb),
              fun hb hd => itemChecks_reversal_pending (findOriginal_ok hf hk hr hv hb) hd⟩⟩⟩
    · obtain ⟨kind, hkind⟩ : ∃ kind : WrapKind, (q.item = .auth count nibbles ∧ kind = .auth) ∨
          (q.item = .refund count nibbles ∧ kind = .refund) :=
        hq.elim (fun h => ⟨.auth, Or.inl ⟨h, rfl⟩⟩) fun h => ⟨.refund, Or.inr ⟨h, rfl⟩⟩
      rw [itemChecks_amount hkind]
      exact ⟨fun c hc code hcode => amountChecks_refused hc hcode,
        fun hc => ⟨amountChecks_format hc, fun v => amountChecks_undefined hc⟩⟩
  · dsimp only
    rw [grantChecks_passesFour hfour]
    refine ⟨laterChecks_undefined, fun c hc => ⟨laterChecks_full hc, fun hf => ⟨?_, fun cls offline hcls => ?_⟩⟩⟩
    · rintro rfl hdown
      exact ⟨fun hfloor => laterChecks_class_refused hc hf (classOf_auth_down hdown (offlineRefusal_floor hfloor)),
        fun hfloor hover =>
          laterChecks_class_refused hc hf (classOf_auth_down hdown (offlineRefusal_ceiling hfloor hover))⟩
    · have hclass := classOf_decided hcls
      refine ⟨?_, fun slot hslot => ?_⟩
      · rintro (⟨rfl, hroom⟩ | ⟨rfl, hroom⟩)
        · exact laterChecks_room_refused hc hf hclass (roomFor_live_full hroom)
        · exact laterChecks_room_refused hc hf hclass (roomFor_store_full hroom)
      · have hroom := roomFor_chosen hc hslot
        refine ⟨fun hx => laterChecks_family_refused hc hf hclass hroom (by rw [hx]; rfl),
          fun ha hl hx => laterChecks_family_refused hc hf hclass hroom (familyRefusal_unavailable ha hl hx),
          fun hserves => laterChecks_passed hc hf hclass hroom (familyRefusal_serving hserves)⟩

/-! ### The reservation (R24, R25, R85, R97) -/

section

variable {k : FamilyRecord}

theorem FamilyRecord.usesLast_eq (k : FamilyRecord) : k.usesLast = decide (k.counter + 1 = k.ceiling) := rfl

theorem FamilyRecord.entersLow_eq (k : FamilyRecord) : k.entersLow =
    decide (k.counter + 1 ≠ k.ceiling ∧ k.state = .active ∧ k.ceiling - (k.counter + 1) ≤ k.low) := by
  simp [FamilyRecord.entersLow, FamilyRecord.usesLast, Bool.and_assoc, Bool.beq_eq_decide_eq]

theorem FamilyRecord.reserve_exhausted (h : k.counter + 1 = k.ceiling) : k.reserve.state = .exhausted := by
  simp [FamilyRecord.reserve, FamilyRecord.usesLast_eq, h]

theorem FamilyRecord.reserve_low (h : k.counter + 1 ≠ k.ceiling) (ha : k.state = .active)
    (hl : k.ceiling - (k.counter + 1) ≤ k.low) : k.reserve.state = .low := by
  simp [FamilyRecord.reserve, FamilyRecord.usesLast_eq, FamilyRecord.entersLow_eq, h, ha, hl]

theorem FamilyRecord.reserve_state (h : k.counter + 1 ≠ k.ceiling)
    (hl : k.state ≠ .active ∨ k.low < k.ceiling - (k.counter + 1)) : k.reserve.state = k.state := by
  have hlow : k.entersLow = false := by
    rw [FamilyRecord.entersLow_eq]
    refine decide_eq_false ?_
    rintro ⟨-, ha, hle⟩
    exact hl.elim (absurd ha) (Nat.not_lt.mpr hle)
  simp [FamilyRecord.reserve, FamilyRecord.usesLast_eq, h, hlow]

end

theorem freeListAfter_ring {slot : ReservedSlot} (free : List Nat) (h : ∀ n, slot ≠ .pool n) :
    freeListAfter free slot = free := by
  cases slot with
  | live pos => rfl
  | store pos => rfl
  | pool n => exact absurd rfl (h n)

theorem cardFor_card {kind : WrapKind} (h : kind ≠ .reversal) (card : List Byte) : kind.cardFor card = card := by
  cases kind with
  | auth => rfl
  | refund => rfl
  | reversal => exact absurd rfl h

theorem reserve_status (s : State) (q : Request) (p : WrapPlan) : (s.reserve q p).status =
    (s.status.raiseIf (s.family p.family).now.usesLast .keyExhausted).raiseIf (s.family p.family).now.entersLow .keyLow :=
  rfl

/-- Settles O19: the reservation field by field, its family by the three cases of R25. -/
theorem grantReserves : Obligations.GrantReserves := by
  intro s i q rest p hon hg hq hp
  dsimp only
  refine ⟨(grantedIntake s i rest).reserve q p, (s.family p.family).now.reserve, (grantedIntake s i rest).reservationWork q p,
    (exec_grant_taken hon hg hq).trans (by rw [hp]; rfl), rfl, rfl, rfl, rfl, rfl, rfl, rfl, rfl, rfl, rfl, rfl, rfl,
    fun hk => cardFor_card hk q.card, rfl, rfl, rfl, FamilyRecord.reserve_exhausted, FamilyRecord.reserve_low,
    FamilyRecord.reserve_state, ?_, rfl, rfl, rfl, fun n free hslot hfree => ?_, fun hslot => ?_, rfl, rfl, rfl, rfl, rfl,
    rfl, rfl⟩
  · rw [← FamilyRecord.usesLast_eq, ← FamilyRecord.entersLow_eq]
    exact reserve_status (grantedIntake s i rest) q p
  · show freeListAfter s.qm.poolFree p.slot = free
    rw [hslot, hfree]
    rfl
  · exact freeListAfter_ring _ hslot

/-! ### The withdrawal (R14, R16, R92) -/

section

variable {s : State} {q : Request} {h : HistoryEntry} {n : Nat} {rec : Record}

theorem voidRecord_written {r : RouteNo} (hn : s.slotOf r h.id = some n) (hrec : s.at? n = some rec) (till : Nat) :
    s.voidRecord r till h = s.writeSlot n (rec.withdrawn till h) := by
  simp [State.voidRecord, hn, hrec]

/-- A withdrawal that finds its original's record: every block but the Terminal Table (R92). -/
theorem withdraw_blocks (hn : s.slotOf (s.term q.terminal).route h.id = some n) (hrec : s.at? n = some rec) :
    let r := (s.term q.terminal).route
    let sat := (s.account r).totals.saturated .withdrawal h.amount ||
      (s.term q.terminal).totals.saturated .withdrawal h.amount
    (s.withdraw q h).qm = { s.qm with slots := Store.put s.qm.slots n (rec.withdrawn q.till h) } ∧
    (s.withdraw q h).accounts = Vec.put s.accounts r ((s.account r).add .withdrawal h.amount sat) ∧
    (s.withdraw q h).links = (s.answer (.lane q.lane) q.corr .withdrawn (.wrap (s.advisory r) h.id)).links ∧
    (s.withdraw q h).status = s.status.raiseIf (sat && !(s.account r).overflow) .totalOverflow ∧
    (s.withdraw q h).intake = s.intake ∧ (s.withdraw q h).engine = s.engine ∧ (s.withdraw q h).keys = s.keys ∧
    (s.withdraw q h).dispatch = s.dispatch ∧ (s.withdraw q h).cutover = s.cutover ∧
    (s.withdraw q h).supply = s.supply ∧ (s.withdraw q h).valid = s.valid := by
  unfold State.withdraw
  dsimp only
  rw [voidRecord_written hn hrec]
  exact ⟨rfl, rfl, rfl, rfl, rfl, rfl, rfl, rfl, rfl, rfl, rfl⟩

/-- The reversal's entry is outstanding, so the release test leaves the terminal's entry (R11, R14, R92). -/
theorem withdraw_term (s : State) (q : Request) (h : HistoryEntry) :
    (s.withdraw q h).terminals = Vec.put s.terminals q.terminal
      ((s.term q.terminal).recorded .withdrawal h.amount (withdrawalEntry q.till h)
        (markReversed h.till true (s.term q.terminal).history)) := by
  rw [withdraw_terminals, release_outstanding]
  exact addHistory_outstanding _ _ rfl

end

/-- Settles O20: block by block, on the state with the head taken. -/
theorem withdrawalVoidsInPlace : Obligations.WithdrawalVoidsInPlace := by
  intro s i q rest h n rec hon hg hq hw hn hrec
  dsimp only
  obtain ⟨hqm, haccounts, hlinks, hstatus, hintake, hengine, hkeys, hdispatch, hcutover, hsupply, hvalid⟩ :=
    withdraw_blocks (s := grantedIntake s i rest) (q := q) hn hrec
  have hat : ∀ m, State.at? ((grantedIntake s i rest).withdraw q h) m =
      Store.find (Store.put s.qm.slots n (rec.withdrawn q.till h)) m := fun m => by
    rw [State.at?, hqm]
    rfl
  refine ⟨_, (exec_grant_taken hon hg hq).trans (by rw [hw]; rfl), hqm, (hat n).trans (Store.find_put_same _ _ _),
    fun m hm => (hat m).trans (Store.find_put_ne _ _ hm), haccounts.trans ?_, withdraw_term _ q h, ?_, fun m hm => ?_,
    hstatus.trans ?_, hintake, hengine, hkeys, hdispatch, hcutover, hsupply, hvalid⟩
  · rw [Bool.or_assoc]
    rfl
  · rw [State.link, hlinks]
    exact State.link_answer _ _ _ _ _
  · rw [State.link, hlinks]
    exact State.link_answer_ne _ _ _ _ (Ne.symm hm)
  · rw [Bool.and_comm]
    rfl

/-! ### The record of a completion (R26, R88) -/

theorem reservedSlot_eq (s : State) (k : ReservationKept) :
    k.slot.slot (s.storePlace k.route) k.route = reservedSlot s k := by
  unfold reservedSlot
  cases k.slot <;> rfl

/-- The card section: data of a padded length and the count of its padding (R26). -/
theorem cardSection_padded (root : Option Root) (t : TerminalNo) (k : KeyRef) (card : List Byte) :
    ∃ data, cardSection root t k card = ⟨data, data.length - card.length⟩ ∧
      data.length = (card.length + 15) / 16 * 16 := by
  have hlength : (cardSection root t k card).data.length = (card.length + 15) / 16 * 16 := by
    simp [cardSection, cipherLength]
  refine ⟨(cardSection root t k card).data, ?_, hlength⟩
  rw [hlength]
  rfl

theorem section_card {kind : WrapKind} (h : kind ≠ .reversal) (c : CardSection) : kind.section c = some c := by
  cases kind with
  | auth => rfl
  | refund => rfl
  | reversal => exact absurd rfl h

/-- The record of a REVERSAL has no card section, every other has one (R26, R88). -/
theorem completedRecord_card (s : State) (k : ReservationKept) (w : ReservationWork) :
    (w.kind = .reversal → (s.completedRecord k w).card = none) ∧
    (w.kind ≠ .reversal → ∃ data, (s.completedRecord k w).card = some ⟨data, data.length - w.card.length⟩ ∧
      data.length = (w.card.length + 15) / 16 * 16) := by
  obtain ⟨data, hsection, hlength⟩ :=
    cardSection_padded (s.family k.key.family).now.root w.terminal k.key w.card
  refine ⟨fun hk => ?_, fun hk => ⟨data, ?_, hlength⟩⟩
  · rw [State.completedRecord, hk]
    rfl
  · rw [← hsection]
    exact section_card hk _

/-! ### The queues after a completion (R89, R99) -/

/-- A ring's offer point set by its definition stands at the first PENDING record (R99). -/
theorem seekOffer_atFirstPending (g : Ring) (place : RingPlace) (slots : List (Nat × Record)) :
    AtFirstPending (g.seekOffer place slots) place slots :=
  seekOffer_first g place slots

/-- A record appended in its reserved place: the next sequence, the part of the queue that grows, and both offer points
(R88, R89, R99). -/
theorem routeQueue_append (q : RouteQueue) (r : RouteNo) (place : RingPlace) (slots : List (Nat × Record))
    (slot : ReservedSlot) :
    let q' := q.append r place slots slot
    q' = { q with nextSeq := q.nextSeq + 1, live := q'.live, store := q'.store, overflow := q'.overflow } ∧
    q'.live.top = q.live.top ∧ q'.store.top = q.store.top ∧
    AtFirstPending q'.live (livePlace r) slots ∧ AtFirstPending q'.store place slots ∧
    (∀ pos, slot = .live pos → q'.live.bottom = q.live.bottom + 1) ∧
    ((∀ pos, slot ≠ .live pos) → q'.live.bottom = q.live.bottom) ∧
    (∀ pos, slot = .store pos → q'.store.bottom = q.store.bottom + 1) ∧
    ((∀ pos, slot ≠ .store pos) → q'.store.bottom = q.store.bottom) ∧
    (∀ n, slot = .pool n → q'.overflow = q.overflow ++ [n]) ∧
    ((∀ n, slot ≠ .pool n) → q'.overflow = q.overflow) := by
  cases slot with
  | live pos =>
    exact ⟨rfl, rfl, rfl, seekOffer_atFirstPending _ _ _, seekOffer_atFirstPending _ _ _, fun _ _ => rfl,
      fun h => absurd rfl (h pos), nofun, fun _ => rfl, nofun, fun _ => rfl⟩
  | store pos =>
    exact ⟨rfl, rfl, rfl, seekOffer_atFirstPending _ _ _, seekOffer_atFirstPending _ _ _, nofun, fun _ => rfl,
      fun _ _ => rfl, fun h => absurd rfl (h pos), nofun, fun _ => rfl⟩
  | pool n =>
    refine ⟨rfl, rfl, rfl, seekOffer_atFirstPending _ _ _, seekOffer_atFirstPending _ _ _, nofun, fun _ => rfl, nofun,
      fun _ => rfl, ?_, fun h => absurd rfl (h n)⟩
    rintro m ⟨⟩
    rfl

section

variable (s : State) (k : ReservationKept) (w : ReservationWork)

/-- The record stands in the reserved slot and nowhere else (R88). -/
theorem completeWrap_slots :
    (s.completeWrap k w).qm.slots = Store.put s.qm.slots (reservedSlot s k) (s.completedRecord k w) := by
  rw [completeWrap_qm, ← reservedSlot_eq]
  rfl

theorem completeWrap_poolFree : (s.completeWrap k w).qm.poolFree = s.qm.poolFree := by
  rw [completeWrap_qm]
  rfl

theorem completeWrap_queue : (s.completeWrap k w).queue k.route =
    (s.queue k.route).append k.route (s.storePlace k.route) (s.completeWrap k w).qm.slots k.slot := by
  rw [State.queue, completeWrap_qm]
  exact Vec.get_put_same _ _ _

theorem completeWrap_queue_ne {r : RouteNo} (h : r ≠ k.route) : (s.completeWrap k w).queue r = s.queue r := by
  rw [State.queue, completeWrap_qm]
  exact Vec.get_put_ne _ _ (Ne.symm h)

/-- The pending close and the close buffer are as they were before the completion (R89, R91). -/
theorem completeWrap_closes : ((s.completeWrap k w).queue k.route).pending = (s.queue k.route).pending ∧
    ((s.completeWrap k w).queue k.route).buffer = (s.queue k.route).buffer := by
  obtain ⟨hq, -⟩ := routeQueue_append (s.queue k.route) k.route (s.storePlace k.route) (s.completeWrap k w).qm.slots k.slot
  rw [completeWrap_queue, hq]
  exact ⟨rfl, rfl⟩

/-! ### Totals, history, answer and events of a completion (R14, R16, R49, R51, R90, R102) -/

theorem completed_offlineAmount :
    w.completed.offlineAmount w.amount = if w.kind = .auth ∧ w.offline = true then w.amount else 0 := by
  unfold ReservationWork.completed
  cases w.kind with
  | auth => cases w.offline <;> rfl
  | refund => rfl
  | reversal => rfl

/-- A completion saturates a sum of its route or of its terminal (R51). -/
def completionSaturates : Bool :=
  (s.account k.route).totals.saturated (completedAs w) w.amount ||
    (s.term w.terminal).totals.saturated (completedAs w) w.amount

theorem completeWrap_accounts : (s.completeWrap k w).accounts = Vec.put s.accounts k.route
    ((s.account k.route).add w.completed w.amount (completionSaturates s k w)) := by
  unfold State.completeWrap
  dsimp only
  split <;> rfl

/-- The completion's entry is outstanding, so the release test leaves the terminal's entry (R11, R14). -/
theorem completeWrap_term : (s.completeWrap k w).terminals = Vec.put s.terminals w.terminal
    ((s.term w.terminal).recorded w.completed w.amount (completionEntry w (s.completedRecord k w).id)
      (historyMarked w (s.term w.terminal).history)) := by
  rw [completeWrap_terminals, release_outstanding]
  exact addHistory_outstanding _ _ rfl

theorem historyMarked_some {ref : Reference} (h : w.ref = some ref) (hs : List HistoryEntry) :
    historyMarked w hs = hs.map fun x => if x.till = ref.till then { x with reversed := true } else x := by
  rw [historyMarked, h]
  rfl

theorem historyMarked_none (h : w.ref = none) (hs : List HistoryEntry) : historyMarked w hs = hs := by
  rw [historyMarked, h]

theorem completeWrap_links_answered (h : w.discarded = false) : (s.completeWrap k w).links =
    (s.answer (.lane w.lane) w.corr w.answerCode (.wrap (s.advisory k.route) (s.completedRecord k w).id)).links := by
  simp only [State.completeWrap, h]
  rfl

theorem completeWrap_links_discarded (h : w.discarded = true) : (s.completeWrap k w).links = s.links := by
  simp only [State.completeWrap, h]
  rfl

theorem completeWrap_link_ne {l : LinkId} (h : l ≠ .lane w.lane) : (s.completeWrap k w).link l = s.link l := by
  cases hd : w.discarded with
  | true => rw [State.link, completeWrap_links_discarded s k w hd, State.link]
  | false =>
    rw [State.link, completeWrap_links_answered s k w hd]
    exact State.link_answer_ne _ _ _ _ (Ne.symm h)

theorem completeWrap_status : (s.completeWrap k w).status =
    (s.status.raiseIf (w.cls == .store && State.ringLow (s.completeWrap k w) k.route) .storeHigh).raiseIf
      (completionSaturates s k w && !(s.account k.route).overflow) .totalOverflow := by
  unfold State.completeWrap
  dsimp only
  split <;> rfl

theorem completeWrap_config (r : RouteNo) : (s.completeWrap k w).config r = s.config r := by
  rw [State.config, completeWrap_status]
  rfl

/-- Ring room after a completion is capacity less occupancy: no reservation is in flight any more (R90, R100, R102). -/
theorem completeWrap_ringLow {c : RouteConfig} (hc : s.config k.route = some c) :
    (s.completeWrap k w).ringLow k.route = decide (2 ^ c.k - (((s.completeWrap k w).queue k.route).store.bottom -
      ((s.completeWrap k w).queue k.route).store.top) ≤ c.highWater) := by
  have hc' := (completeWrap_config s k w k.route).trans hc
  rw [State.ringLow, hc']
  dsimp only
  rw [ringRoom_eq hc', completeWrap_engine]
  rfl

theorem completeWrap_ringLow_undefined (hc : s.config k.route = none) : (s.completeWrap k w).ringLow k.route = false := by
  rw [State.ringLow, completeWrap_config, hc]

theorem completeWrap_supply : (s.completeWrap k w).supply = s.supply := by
  apply completeWrap_keeps (·.supply) <;> intros <;> rfl

theorem completeWrap_valid : (s.completeWrap k w).valid = s.valid := by
  apply completeWrap_keeps (·.valid) <;> intros <;> rfl

/-- A completion's own effect is the one R88 to R90 give. -/
theorem completeWrap_completedTo : CompletedTo s k w (s.completeWrap k w) := by
  have hslots := completeWrap_slots s k w
  have hat : ∀ m, (s.completeWrap k w).at? m =
      Store.find (Store.put s.qm.slots (reservedSlot s k) (s.completedRecord k w)) m := fun m => by
    rw [State.at?, hslots]
  obtain ⟨hnocard, hcard⟩ := completedRecord_card s k w
  obtain ⟨hq, hlive, hstore, hlivePending, hstorePending, happended⟩ :=
    routeQueue_append (s.queue k.route) k.route (s.storePlace k.route) (s.completeWrap k w).qm.slots k.slot
  rw [← completeWrap_queue] at hq hlive hstore hlivePending hstorePending happended
  obtain ⟨hlive1, hlive0, hstore1, hstore0, hpool1, hpool0⟩ := happended
  refine ⟨completeWrap_engine s k w,
    ⟨(s.completedRecord k w).card, ⟨hslots, (hat _).trans (Store.find_put_same _ _ _),
      fun m hm => (hat m).trans (Store.find_put_ne _ _ hm)⟩, hnocard, hcard⟩,
    rfl, completeWrap_poolFree s k w, fun r hr => completeWrap_queue_ne s k w hr,
    ⟨hq, hlive, hstore, hlivePending, hstorePending, hlive1, hlive0, hstore1, hstore0, hpool1, hpool0, ?status⟩,
    (completeWrap_accounts s k w).trans ?accounts, (completeWrap_term s k w).trans ?history, fun hd => ?answer,
    completeWrap_links_discarded s k w, fun m hm => completeWrap_link_ne s k w hm, completeWrap_intake s k w,
    completeWrap_keys s k w, completeWrap_dispatch s k w, completeWrap_cutover s k w, completeWrap_supply s k w,
    completeWrap_valid s k w, completeWrap_pending s k w⟩
  case status =>
    rw [completeWrap_status]
    cases hc : s.config k.route with
    | none =>
      rw [completeWrap_ringLow_undefined s k w hc]
      rfl
    | some c =>
      rw [completeWrap_ringLow s k w hc]
      rfl
  case accounts =>
    rw [RouteAccount.add, completed_offlineAmount]
    rfl
  case history =>
    cases href : w.ref with
    | none =>
      rw [historyMarked_none w href]
      rfl
    | some ref =>
      rw [historyMarked_some w href]
      rfl
  case answer =>
    rw [State.link, completeWrap_links_answered s k w hd]
    exact State.link_answer _ _ _ _ _

end

/-! ### COMPLETION (R90, R91, R111, R112) -/

/-- COMPLETION is the completion's own effect, then the close that falls due at it (R90, R91). -/
theorem exec_completion {s : State} {k : ReservationKept} {w : ReservationWork} (hon : s.supply = .on)
    (he : s.engine = .busy k w) : exec .completion s =
      .next ((s.completeWrap k w).dueClose k.route ((s.queue k.route).nextSeq == Config.lastDataSeq)) := by
  refine congrArg Host.Outcome.next ?_
  rw [if_pos (awake_of_on hon), he]
  rfl

/-- Settles O21: no close falls due, and the completion's own effect is all. -/
theorem completionMakesRecord : Obligations.CompletionMakesRecord := by
  intro s k w hon he hclose hlast
  obtain ⟨hpending, hbuffer⟩ := completeWrap_closes s k w
  have hmore : ((s.queue k.route).nextSeq == Config.lastDataSeq) = false := beq_false_of_ne hlast
  refine ⟨s.completeWrap k w, ?_, completeWrap_completedTo s k w⟩
  rw [exec_completion hon he, hmore, dueClose_none]
  rwa [hpending, hbuffer]

/-- Settles O22: the own effect, then the close by the cases of R91 and R112. -/
theorem completionCloses : Obligations.CompletionCloses := by
  intro s k w hon he
  dsimp only
  obtain ⟨hpending, hbuffer⟩ := completeWrap_closes s k w
  have hlast : (s.queue k.route).nextSeq = 65534 → exec .completion s =
      .next ((s.completeWrap k w).dueClose k.route true) := fun h => by
    rw [exec_completion hon he, h]
    rfl
  refine ⟨s.completeWrap k w, completeWrap_completedTo s k w, fun p hp hb => ?_, fun hp hb h => ?_,
    fun hb h => ⟨fun p hp => ?_, fun hp => ?_⟩⟩
  · rw [exec_completion hon he, dueClose_performed (hpending.trans hp) (hbuffer.trans hb)]
    rfl
  · rw [hlast h, dueClose_batchFull (hpending.trans hp) (hbuffer.trans hb)]
  · rw [hlast h, dueClose_full (hpending.trans hp) (by rwa [hbuffer])]
    rfl
  · rw [hlast h, dueClose_deferred (hpending.trans hp) (by rwa [hbuffer])]
    rfl

end Sys2Proof.Machine
end

section
/-! The record store (06_record_store_and_route_queues.md, R96, R97): every step keeps it in canonical form within its 2,048
slots, with a wrap in flight only on a defined route of a RUNNING part. -/

namespace Sys2Proof.Machine

/-! ### The slots a state names (R75, R97)

All bounds of the invariant are one: every slot number that stands anywhere in the state lies in the record store. An operation
that names no new slot keeps it, whatever it moves between record, free list, overflow part and reservation. -/

/-- A slot the Queue Manager names: it holds a record, is on the free list, or is in an overflow part. -/
def QueueManager.Names (qm : QueueManager) (n : Nat) : Prop :=
  (∃ rec, (n, rec) ∈ qm.slots) ∨ n ∈ qm.poolFree ∨ ∃ r, n ∈ (Vec.get qm.queues r).overflow

/-- A slot the state names: the Queue Manager does, or it is a pool slot reserved. -/
def State.Names (s : State) (n : Nat) : Prop := s.qm.Names n ∨ ∃ k, s.engine.kept = some k ∧ k.slot = .pool n

theorem storeOk_iff (s : State) : s.StoreOk ↔
    Store.wf s.qm.slots = true ∧ (∀ n, s.Names n → n < Config.storeSlots) ∧
    poolStart s.status.config ≤ Config.storeSlots ∧
    ∀ k w, s.engine = .busy k w → s.status.part = .running ∧ s.defined k.route = true := by
  constructor
  · intro h
    refine ⟨h.canonical, ?_, h.layout, h.running⟩
    rintro n ((⟨rec, hrec⟩ | hfree | ⟨r, hover⟩) | ⟨k, hk, hslot⟩)
    · exact h.slots _ hrec
    · exact h.free n hfree
    · exact h.overflow r n hover
    · have hin := h.reserved k hk
      rwa [hslot] at hin
  · rintro ⟨hwf, hnames, hlayout, hrun⟩
    refine ⟨hwf, fun c hc => hnames c.1 (Or.inl (Or.inl ⟨c.2, hc⟩)), fun n hn => hnames n (Or.inl (Or.inr (Or.inl hn))),
      fun r n hn => hnames n (Or.inl (Or.inr (Or.inr ⟨r, hn⟩))), fun k hk => ?_, hlayout, hrun⟩
    cases hslot : k.slot with
    | live pos => exact trivial
    | store pos => exact trivial
    | pool n => exact hnames n (Or.inr ⟨k, hk, hslot⟩)

theorem State.StoreOk.names_lt {s : State} (h : s.StoreOk) {n : Nat} (hn : s.Names n) : n < Config.storeSlots := by
  obtain ⟨-, hnames, -⟩ := (storeOk_iff s).mp h
  exact hnames n hn

/-! ### Queues that name no new slot -/

/-- The new queues keep the canonical form of the old ones and name no slot that these do not. -/
structure QueueManager.Within (new old : QueueManager) : Prop where
  canonical : Store.wf old.slots = true → Store.wf new.slots = true
  names     : ∀ n, new.Names n → old.Names n

theorem QueueManager.Within.refl (qm : QueueManager) : qm.Within qm := ⟨id, fun _ => id⟩

theorem QueueManager.Within.trans {a b c : QueueManager} (h : b.Within a) (k : c.Within b) : c.Within a :=
  ⟨k.canonical ∘ h.canonical, fun n hn => h.names n (k.names n hn)⟩

/-- A route's queue written with no new entry in its overflow part adds to no overflow part. -/
theorem overflow_put {queues : Vector RouteQueue 4} {r : RouteNo} {q : RouteQueue}
    (hq : ∀ n ∈ q.overflow, n ∈ (Vec.get queues r).overflow) {x : RouteNo} {n : Nat}
    (hn : n ∈ (Vec.get (Vec.put queues r q) x).overflow) : n ∈ (Vec.get queues x).overflow := by
  rw [Vec.get_put] at hn
  split at hn
  · next hx =>
    subst hx
    exact hq n hn
  · exact hn

/-- Records rewritten in slots that hold one, or freed, and a route's queue written with its overflow part as it was. -/
theorem QueueManager.within_of_write {qm : QueueManager} {slots : List (Nat × Record)} {r : RouteNo} {q : RouteQueue}
    (hwf : Store.wf qm.slots = true → Store.wf slots = true) (hslots : ∀ n rec, (n, rec) ∈ slots → ∃ old, (n, old) ∈ qm.slots)
    (hq : q.overflow = (Vec.get qm.queues r).overflow) :
    QueueManager.Within { qm with slots := slots, queues := Vec.put qm.queues r q } qm := by
  refine ⟨hwf, ?_⟩
  rintro n (⟨rec, hrec⟩ | hfree | ⟨x, hover⟩)
  · exact Or.inl (hslots n rec hrec)
  · exact Or.inr (Or.inl hfree)
  · exact Or.inr (Or.inr ⟨x, overflow_put (fun _ hn => hq ▸ hn) hover⟩)

/-- A record written over another names no new slot. -/
theorem mem_put_of_find {slots : List (Nat × Record)} {slot : Nat} {old new : Record}
    (h : Store.find slots slot = some old) {n : Nat} {rec : Record} (hn : (n, rec) ∈ Store.put slots slot new) :
    ∃ r, (n, r) ∈ slots := by
  rcases Store.mem_put hn with hnew | hold
  · cases hnew
    exact ⟨old, Store.mem_of_find h⟩
  · exact ⟨rec, hold⟩

theorem putSlot_within {qm : QueueManager} {slot : Nat} {old : Record} (h : Store.find qm.slots slot = some old)
    (new : Record) : QueueManager.Within { qm with slots := Store.put qm.slots slot new } qm :=
  ⟨Store.wf_put slot new, fun _ hn => hn.imp_left fun ⟨_, hrec⟩ => mem_put_of_find h hrec⟩

/-- A rewind rewrites records where they stand (R104). -/
theorem mem_rewindSlots {slots : List (Nat × Record)} {ns : List Nat} {n : Nat} {rec : Record}
    (h : (n, rec) ∈ rewindSlots slots ns) : ∃ old, (n, old) ∈ slots := by
  obtain ⟨⟨m, old⟩, hmem, he⟩ := List.mem_map.mp h
  have hnm : m = n := by split at he <;> exact congrArg Prod.fst he
  exact ⟨old, hnm ▸ hmem⟩

/-- The sweep of a ring's top only frees slots (R105). -/
theorem mem_of_mem_sweepTop {place : RingPlace} {n : Nat} {g : Ring} {slots : List (Nat × Record)} {c : Nat × Record}
    (h : c ∈ (sweepTop place n g slots).2) : c ∈ slots := by
  induction n generalizing g slots with
  | zero => exact h
  | succ n ih =>
    simp only [sweepTop] at h
    split at h
    · exact List.mem_of_mem_filter (ih h)
    · exact h

/-- What an acknowledgement frees goes from an overflow part to the free list, or out of a ring (R105, R106). -/
theorem freeAfterAck_within (qm : QueueManager) (r : RouteNo) (place : RingPlace) (slot : Nat) :
    (freeAfterAck qm r place slot).Within qm := by
  have hring : ∀ (p : RingPlace) (g : Ring) {slots : List (Nat × Record)} {q : RouteQueue},
      slots = (sweepTop p g.occupancy g qm.slots).2 ∨ slots = qm.slots → q.overflow = (Vec.get qm.queues r).overflow →
      QueueManager.Within { qm with slots := slots, queues := Vec.put qm.queues r q } qm := by
    rintro p g _ q (rfl | rfl) hq
    · exact QueueManager.within_of_write sweepTop_wf (fun _ rec hn => ⟨rec, mem_of_mem_sweepTop hn⟩) hq
    · exact QueueManager.within_of_write id (fun _ rec hn => ⟨rec, hn⟩) hq
  simp only [freeAfterAck]
  split
  · next hover =>
    refine ⟨Store.wf_free slot, ?_⟩
    rintro n (⟨rec, hrec⟩ | hfree | ⟨x, hn⟩)
    · exact Or.inl ⟨rec, List.mem_of_mem_filter hrec⟩
    · rcases List.mem_append.mp hfree with hfree | hslot
      · exact Or.inr (Or.inl hfree)
      · rw [List.mem_singleton.mp hslot]
        exact Or.inr (Or.inr ⟨r, List.contains_iff_mem.mp hover⟩)
    · exact Or.inr (Or.inr ⟨x, overflow_put (fun _ => List.mem_of_mem_filter) hn⟩)
  · split
    · refine hring (livePlace r) (Vec.get qm.queues r).live ?_ rfl
      split
      · exact Or.inl rfl
      · exact Or.inr rfl
    · refine hring place (Vec.get qm.queues r).store ?_ rfl
      split
      · exact Or.inl rfl
      · exact Or.inr rfl

/-! ### Steps that name no new slot -/

/-- A step that keeps the canonical form and the layout, names no new slot and puts no wrap in flight: one in flight
afterwards was so before, and the part has not left RUNNING. -/
structure SlotsKept (s t : State) : Prop where
  canonical : Store.wf s.qm.slots = true → Store.wf t.qm.slots = true
  names     : ∀ n, t.Names n → s.Names n
  config    : t.status.config = s.status.config
  flight    : ∀ k w, t.engine = .busy k w →
    (∃ w', s.engine = .busy k w') ∧ (s.status.part = .running → t.status.part = .running)

theorem SlotsKept.refl (s : State) : SlotsKept s s := ⟨id, fun _ => id, rfl, fun _ w he => ⟨⟨w, he⟩, id⟩⟩

theorem SlotsKept.trans {s t u : State} (h : SlotsKept s t) (k : SlotsKept t u) : SlotsKept s u := by
  refine ⟨k.canonical ∘ h.canonical, fun n hn => h.names n (k.names n hn), k.config.trans h.config, fun key w he => ?_⟩
  obtain ⟨⟨w', he'⟩, hp'⟩ := k.flight key w he
  obtain ⟨hw'', hp''⟩ := h.flight key w' he'
  exact ⟨hw'', hp' ∘ hp''⟩

/-- Queues that name no new slot, beside the same engine and configuration, on a part that has not left RUNNING. -/
theorem SlotsKept.of_within {s t : State} (hq : t.qm.Within s.qm) (he : t.engine = s.engine)
    (hc : t.status.config = s.status.config) (hp : s.status.part = .running → t.status.part = .running) : SlotsKept s t := by
  refine ⟨hq.canonical, fun n hn => ?_, hc, fun k w hb => ⟨⟨w, he.symm.trans hb⟩, hp⟩⟩
  rw [State.Names, he] at hn
  exact hn.imp_left (hq.names n)

/-- The usual case: the queues, the engine and the configuration are the same. -/
theorem SlotsKept.of_eq {s t : State} (hq : t.qm = s.qm) (he : t.engine = s.engine)
    (hc : t.status.config = s.status.config) (hp : s.status.part = .running → t.status.part = .running) : SlotsKept s t :=
  .of_within (hq ▸ .refl _) he hc hp

/-- The same where records, free list and overflow parts are the same. -/
theorem SlotsKept.of_store {s t : State} (h : StoreKept s t) (he : t.engine = s.engine)
    (hp : s.status.part = .running → t.status.part = .running) : SlotsKept s t := by
  refine .of_within ⟨fun hwf => h.slots ▸ hwf, fun n hn => ?_⟩ he h.config hp
  rw [QueueManager.Names, h.slots, h.free] at hn
  refine hn.imp_right (Or.imp_right fun ⟨r, hr⟩ => ⟨r, ?_⟩)
  obtain ⟨-, -, hover⟩ := h.queues r
  exact hover ▸ hr

theorem State.StoreOk.kept {s t : State} (h : s.StoreOk) (k : SlotsKept s t) : t.StoreOk := by
  rw [storeOk_iff]
  refine ⟨k.canonical h.canonical, fun n hn => h.names_lt (k.names n hn), k.config ▸ h.layout, fun key w he => ?_⟩
  obtain ⟨⟨w', hs⟩, hp⟩ := k.flight key w he
  obtain ⟨hrun, hdef⟩ := h.running key w' hs
  refine ⟨hp hrun, ?_⟩
  rwa [State.defined, State.config, k.config]

theorem setLink_slotsKept (s : State) (l : LinkId) (k : Link) : SlotsKept s (s.setLink l k) := .of_eq rfl rfl rfl id

theorem answer_slotsKept (s : State) (l : LinkId) (corr : Byte) (code : Code) (reply : Reply := .bare) :
    SlotsKept s (s.answer l corr code reply) :=
  setLink_slotsKept s l _

theorem rewind_slotsKept (s : State) (r : RouteNo) : SlotsKept s (s.rewind r) :=
  .of_within (QueueManager.within_of_write (rewindSlots_wf _) (fun _ _ => mem_rewindSlots) rfl) rfl rfl id

/-- An abandoned setup sequence leaves the configuration in force (R166). -/
theorem abandoned_config (u : StatusUnit) : u.abandoned.config = u.config := by
  unfold StatusUnit.abandoned
  split <;> rfl

theorem abandon_slotsKept (s : State) : SlotsKept s s.abandon := .of_eq rfl rfl (abandoned_config _) abandoned_running

/-! ### Closes (R109, R111): only a route's batch, buffer and pending close are written -/

theorem requestClose_slotsKept (s : State) (r : RouteNo) (why : CloseReason) : SlotsKept s (s.requestClose r why).1 := by
  rcases requestClose_cases s r why with ⟨p, -, e⟩ | ⟨-, -, e⟩ | ⟨-, -, -, e⟩ | ⟨-, -, -, e⟩ <;> rw [e]
  · exact .refl s
  · exact .of_store (deferClose_store s r why) rfl id
  · exact .of_store (setQueue_store s r _ ⟨rfl, rfl, rfl⟩) rfl id
  · exact .of_store (performClose_store s r why) rfl id

theorem askClose_slotsKept (s : State) (r : RouteNo) : SlotsKept s (s.askClose r) := by
  unfold State.askClose
  split
  · exact requestClose_slotsKept s r _
  · exact .refl s

theorem settleDeferred_slotsKept (s : State) (r : RouteNo) : SlotsKept s (s.settleDeferred r) := by
  rcases settleDeferred_cases s r with e | ⟨p, -, -, e⟩ | ⟨p, -, -, -, e⟩ <;> rw [e]
  · exact .refl s
  · exact .of_store (setQueue_store s r _ ⟨rfl, rfl, rfl⟩) rfl id
  · exact .of_store (performClose_store s r _) rfl id

theorem dueClose_slotsKept (s : State) (r : RouteNo) (last : Bool) : SlotsKept s (s.dueClose r last) := by
  have hfull : SlotsKept s (s.setQueue r (s.queue r).setFull) := .of_store (setQueue_store s r _ ⟨rfl, rfl, rfl⟩) rfl id
  rcases dueClose_cases s r last with e | ⟨why, -, e⟩ | e | e <;> rw [e]
  · exact .refl s
  · exact .of_store (performClose_store s r why) rfl id
  · exact hfull
  · exact hfull.trans (.of_store (deferClose_store _ r _) rfl id)

/-! ### Offers, acknowledgements, transmitters (R118, R121, R126, R130) -/

theorem takeDown_slotsKept (s : State) (r : RouteNo) (why : DownReason) (cause : EndCause) :
    SlotsKept s (s.takeDown r why cause) := by
  have hdown : ∀ b : State, SlotsKept b ((b.rewind r).setRoute r ((s.route r).takenDown why)) := fun b =>
    (rewind_slotsKept b r).trans (.of_eq rfl rfl rfl id)
  cases hst : (s.route r).stream with
  | none =>
    rw [takeDown_closed why cause hst]
    exact hdown s
  | some st =>
    rw [takeDown_open why cause hst]
    have hsend : SlotsKept s (s.send st.link (.streamEnd st.corr r cause)) := .of_eq rfl rfl rfl id
    exact hsend.trans (hdown _)

theorem slotRecord_at {s : State} {m n : Nat} {rec : Record} (h : s.slotRecord m = some (n, rec)) : s.at? n = some rec := by
  obtain ⟨x, hx, he⟩ := Option.map_eq_some_iff.mp h
  cases he
  exact hx

/-- A live head is a record in its slot (R103). -/
theorem liveHead_at {s : State} {r : RouteNo} {n : Nat} {rec : Record} (h : s.liveHead r = some (n, rec)) :
    s.at? n = some rec := by
  unfold State.liveHead at h
  dsimp only at h
  split at h
  · exact slotRecord_at h
  · cases h

/-- A store head is a record in its slot (R103). -/
theorem storeHead_at {s : State} {r : RouteNo} {n : Nat} {rec : Record} (h : s.storeHead r = some (n, rec)) :
    s.at? n = some rec := by
  unfold State.storeHead at h
  dsimp only at h
  split at h
  · exact slotRecord_at h
  · split at h
    · exact slotRecord_at h
    · cases h

/-- A data record chosen for an offer is one of the two data heads (R119, R120). -/
theorem chooseHead_data {e plus minus e' slot : Nat} {rec : Record} {close : Option CloseRecord}
    {live store : Option (Nat × Record)} (h : chooseHead e plus minus close live store = some (.data slot rec, e')) :
    live = some (slot, rec) ∨ store = some (slot, rec) := by
  unfold chooseHead at h
  split at h
  · cases h
  · split at h
    · unfold drainChoice at h
      split at h <;> cases h
      · exact Or.inr rfl
      · exact Or.inl rfl
    · cases h
      exact Or.inl rfl
    · cases h
      exact Or.inr rfl
    · cases h

theorem choose_data_at {s : State} {r : RouteNo} {c : RouteConfig} {slot e : Nat} {rec : Record}
    (h : s.choose r c = some (.data slot rec, e)) : s.at? slot = some rec :=
  (chooseHead_data h).elim liveHead_at storeHead_at

theorem offer_slotsKept {s s' : State} {r : RouteNo} {c : RouteConfig} {corr : Byte} {m : Message}
    (ho : s.offer r c corr = some (s', m)) : SlotsKept s s' := by
  rcases offer_cases ho with ⟨slot, rec, e, hc, rfl, -⟩ | ⟨cl, e, -, rfl, -⟩
  · exact .of_within (QueueManager.within_of_write (Store.wf_put _ _) (fun _ _ => mem_put_of_find (choose_data_at hc)) rfl)
      rfl rfl id
  · exact .of_within (QueueManager.within_of_write id (fun _ rec hn => ⟨rec, hn⟩) rfl) rfl rfl id

theorem ackRecord_slotsKept {s : State} {n : Nat} {rec : Record} (h : s.at? n = some rec) (r : RouteNo) :
    SlotsKept s (s.ackRecord r n rec) :=
  .of_within ((putSlot_within h _).trans (freeAfterAck_within _ r _ n)) rfl rfl id

theorem acknowledge_slotsKept (s : State) (r : RouteNo) (c : RouteConfig) (id : Identity) :
    SlotsKept s (s.acknowledge r c id) := by
  unfold State.acknowledge
  have hroute : SlotsKept s (s.setRoute r ((s.route r).unlisting c id)) := .of_eq rfl rfl rfl fun hp => hp
  generalize s.setRoute r ((s.route r).unlisting c id) = b at hroute ⊢
  rcases ackAtQueues_cases b r id with e | ⟨n, rec, -, hrec, -, e⟩ | ⟨cl, -, -, e⟩ <;> rw [e]
  · exact hroute
  · exact hroute.trans (ackRecord_slotsKept hrec r)
  · have hfree : SlotsKept b (b.setQueue r { b.queue r with buffer := none }) :=
      .of_store (setQueue_store b r _ ⟨rfl, rfl, rfl⟩) rfl fun hp => hp
    exact hroute.trans (hfree.trans (settleDeferred_slotsKept _ r))

theorem serveStream_slotsKept (s : State) (l : LinkId) (r : RouteNo) : SlotsKept s (s.serveStream l r) := by
  unfold State.serveStream
  split
  · split
    · next ho =>
      refine (offer_slotsKept ho).trans ?_
      unfold State.endByCount
      dsimp only
      split <;> exact .of_eq rfl rfl rfl id
    · exact .refl s
  · exact .refl s

theorem nextMessage_slotsKept (s : State) (l : LinkId) : SlotsKept s (s.nextMessage l) := by
  unfold State.nextMessage
  split
  · exact setLink_slotsKept s l _
  · split
    · exact serveStream_slotsKept s l _
    · exact .refl s

/-! ### GRANT (R65, R82, R85, R92) -/

/-- The pool slot that check 7 answers is on the free list (R82, R97). -/
theorem roomFor_pool {s : State} {r : RouteNo} {cls : RecordClass} {n : Nat} (h : s.roomFor r cls = .ok (.pool n)) :
    n ∈ s.qm.poolFree := by
  unfold State.roomFor at h
  split at h
  · split at h <;> cases h
  · split at h
    · next slot hslot =>
      cases h
      unfold State.storeSlot at hslot
      dsimp only at hslot
      split at hslot
      · cases hslot
      · split at hslot
        · obtain ⟨m, hm, he⟩ := Option.map_eq_some_iff.mp hslot
          cases he
          exact List.mem_of_mem_head? hm
        · cases hslot
    · cases h

/-- A wrap that the grant checks let through is on a defined route, and a pool slot it will reserve is free (R80, R82). -/
theorem grantChecks_place {s : State} {q : Request} {p : WrapPlan} (h : s.grantChecks q = .wrap p) :
    s.defined p.route = true ∧ ∀ n, p.slot = .pool n → n ∈ s.qm.poolFree := by
  obtain ⟨e, kind, amount, ref, hlater⟩ := grantChecks_later h
  unfold State.laterChecks at hlater
  split at hlater
  · cases hlater
  · next c hc =>
    split at hlater
    · cases hlater
    · split at hlater
      · cases hlater
      · split at hlater
        · cases hlater
        · next slot hslot =>
          split at hlater
          · cases hlater
          · cases hlater
            refine ⟨by rw [State.defined, hc]; rfl, fun n hn => ?_⟩
            dsimp only at hn
            subst hn
            exact roomFor_pool hslot

theorem mem_freeListAfter {free : List Nat} {slot : ReservedSlot} {n : Nat} (h : n ∈ freeListAfter free slot) : n ∈ free := by
  cases slot with
  | live pos => exact h
  | store pos => exact h
  | pool m => exact List.mem_of_mem_tail h

/-- A reservation on a RUNNING part for a defined route: the slot it reserves leaves the free list (R85, R97). -/
theorem reserve_storeOk {s : State} (hs : s.StoreOk) (hrun : s.status.part = .running) (q : Request) {p : WrapPlan}
    (hdef : s.defined p.route = true) (hpool : ∀ n, p.slot = .pool n → n ∈ s.qm.poolFree) : (s.reserve q p).StoreOk := by
  rw [storeOk_iff]
  refine ⟨hs.canonical, fun n hn => hs.names_lt ?_, hs.layout, ?_⟩
  · rcases hn with (hrec | hfree | hover) | ⟨k, hk, hslot⟩
    · exact Or.inl (Or.inl hrec)
    · exact Or.inl (Or.inr (Or.inl (mem_freeListAfter hfree)))
    · exact Or.inl (Or.inr (Or.inr hover))
    · cases hk
      exact Or.inl (Or.inr (Or.inl (hpool n hslot)))
  · rintro k w ⟨⟩
    exact ⟨hrun, hdef⟩

theorem voidRecord_slotsKept (s : State) (r : RouteNo) (till : Nat) (h : HistoryEntry) :
    SlotsKept s (s.voidRecord r till h) := by
  unfold State.voidRecord
  split
  · split
    · next hrec => exact .of_within (putSlot_within hrec _) rfl rfl id
    · exact .refl s
  · exact .refl s

theorem withdraw_slotsKept (s : State) (q : Request) (h : HistoryEntry) : SlotsKept s (s.withdraw q h) := by
  unfold State.withdraw
  dsimp only
  have hvoid := voidRecord_slotsKept s (s.term q.terminal).route q.till h
  generalize s.voidRecord (s.term q.terminal).route q.till h = b at hvoid ⊢
  exact hvoid.trans (.of_eq rfl rfl rfl id)

/-- The outcome of the grant checks, carried out on a RUNNING part (R84, R85, R92). -/
theorem settleGrant_storeOk {s : State} (hs : s.StoreOk) (hrun : s.status.part = .running) (q : Request) :
    (s.settleGrant q (s.grantChecks q)).StoreOk := by
  cases hv : s.grantChecks q with
  | refused code => exact hs.kept (answer_slotsKept s _ _ _)
  | duplicate h => exact hs.kept (answer_slotsKept s _ _ _ _)
  | withdraw h => exact hs.kept (withdraw_slotsKept s q h)
  | wrap p =>
    obtain ⟨hdef, hpool⟩ := grantChecks_place hv
    exact reserve_storeOk hs hrun q hdef hpool

theorem execGrant_storeOk {s : State} (hs : s.StoreOk) : ∃ t, execGrant s = .next t ∧ t.StoreOk := by
  refine ⟨_, rfl, ?_⟩
  split
  · split
    · exact hs
    · next i hi =>
      split
      · exact hs
      · next q _ _ =>
        have hgranted : State.StoreOk { s with intake := s.intake.granted i } := hs.kept (.of_eq rfl rfl rfl id)
        have hrun : s.status.part = .running := running_of_eligible (grantLane_eligible hi)
        exact settleGrant_storeOk hgranted hrun q
  · exact hs

/-! ### COMPLETION: the record is written where its reservation says (R88, R96, R99) -/

/-- A route's store ring ends before the pool begins: its size is summed after those of the routes below it (R96). -/
theorem ringsBelow_add_ringSize_le (config : Vector (Option RouteConfig) 4) (r : RouteNo) :
    ringsBelow config r.val + ringSize (Vec.get config r) ≤ ringsBelow config 4 := by
  have hroutes : (((List.finRange 4).filter fun q : RouteNo => q.val < r.val) ++ [r]).Sublist
      ((List.finRange 4).filter fun q : RouteNo => q.val < 4) := by
    revert r
    decide
  have hsum := (hroutes.map fun q => ringSize (Vec.get config q)).sum_le_sum (by simp)
  simpa [ringsBelow] using hsum

theorem RingPlace.slot_lt {g : RingPlace} (h : 0 < g.size) (pos : Nat) : g.slot pos < g.base + g.size :=
  Nat.add_lt_add_left (Nat.mod_lt pos h) g.base

theorem ringSize_pos {c : Option RouteConfig} (h : c.isSome = true) : 0 < ringSize c := by
  obtain ⟨c, rfl⟩ := Option.isSome_iff_exists.mp h
  exact Nat.two_pow_pos c.k

/-- The slot of the wrap in flight lies in the record store: in the live rings, in the store ring of its defined route, or in
the pool (R96). -/
theorem State.StoreOk.reservedSlot_lt {s : State} (hs : s.StoreOk) {k : ReservationKept} {w : ReservationWork}
    (he : s.engine = .busy k w) : k.slot.slot (s.storePlace k.route) k.route < Config.storeSlots := by
  have hlayout := hs.layout
  unfold poolStart at hlayout
  cases hslot : k.slot with
  | live pos =>
    have hlt := RingPlace.slot_lt (g := livePlace k.route) (Nat.zero_lt_succ 15) pos
    have hroute := k.route.isLt
    simp only [livePlace, Config.liveSize, Config.liveSlots, Config.storeSlots, ReservedSlot.slot] at hlt hlayout ⊢
    omega
  | store pos =>
    obtain ⟨-, hdef⟩ := hs.running k w he
    have hlt := RingPlace.slot_lt (g := s.storePlace k.route) (ringSize_pos hdef) pos
    have hend := ringsBelow_add_ringSize_le s.status.config k.route
    simp only [State.storePlace, Machine.storePlace, ReservedSlot.slot] at hlt ⊢
    omega
  | pool n =>
    have hin := hs.reserved k (by rw [he]; rfl)
    rwa [hslot] at hin

/-- A record appended adds its own slot to those that the queues name, in whatever part it lies (R88, R89). -/
theorem append_names {s : State} {k : ReservationKept} {rec : Record} {n : Nat} (hn : (s.append k rec).qm.Names n) :
    s.qm.Names n ∨ n = k.slot.slot (s.storePlace k.route) k.route := by
  rcases hn with ⟨x, hx⟩ | hfree | ⟨r, hover⟩
  · rcases Store.mem_put hx with hnew | hold
    · exact Or.inr (congrArg Prod.fst hnew)
    · exact Or.inl (Or.inl ⟨x, hold⟩)
  · exact Or.inl (Or.inr (Or.inl hfree))
  · simp only [State.append, Vec.get_put] at hover
    split at hover
    · have hown : n ∈ (s.queue k.route).overflow ∨ n = k.slot.slot (s.storePlace k.route) k.route := by
        cases hslot : k.slot with
        | live pos => exact Or.inl (by rwa [hslot] at hover)
        | store pos => exact Or.inl (by rwa [hslot] at hover)
        | pool m =>
          rw [hslot] at hover
          exact (List.mem_append.mp hover).imp_right List.mem_singleton.mp
      exact hown.imp_left fun h => Or.inr (Or.inr ⟨k.route, h⟩)
    · exact Or.inl (Or.inr (Or.inr ⟨r, hover⟩))

theorem completeWrap_storeOk {s : State} {k : ReservationKept} {w : ReservationWork} (hs : s.StoreOk)
    (he : s.engine = .busy k w) : (s.completeWrap k w).StoreOk := by
  have hconfig : (s.completeWrap k w).status.config = s.status.config := by
    rw [completeWrap_status]
    rfl
  rw [storeOk_iff, completeWrap_qm, completeWrap_engine, hconfig]
  refine ⟨Store.wf_put _ _ hs.canonical, fun n hn => ?_, hs.layout, nofun⟩
  rw [State.Names, completeWrap_qm, completeWrap_engine] at hn
  rcases hn with hn | ⟨_, hk, -⟩
  · rcases append_names hn with hold | rfl
    · exact hs.names_lt (Or.inl hold)
    · exact hs.reservedSlot_lt he
  · cases hk

theorem execCompletion_storeOk {s : State} (hs : s.StoreOk) : ∃ t, execCompletion s = .next t ∧ t.StoreOk := by
  refine ⟨_, rfl, ?_⟩
  split
  · split
    · next k w he => exact (completeWrap_storeOk hs he).kept (dueClose_slotsKept _ _ _)
    · exact hs
  · exact hs

/-! ### Acts that leave the queues, the engine and the configuration as they are

Each branch of such an act is a refusal, or an update of other blocks. -/

section

variable (l : LinkId) (corr b : Byte) (t : TerminalNo) (r : RouteNo) (c : RouteConfig) (s : State)

theorem wrapRequestAct_slotsKept (kind : WrapKind) (i : LaneNo) (p : List Byte) :
    SlotsKept s (wrapRequestAct kind i corr p s) := by
  unfold wrapRequestAct
  repeat' split
  all_goals exact .of_eq rfl rfl rfl id

theorem laneHoldAct_slotsKept (held : Bool) : SlotsKept s (laneHoldAct held l corr b s) := by
  unfold laneHoldAct
  repeat' split
  all_goals exact .of_eq rfl rfl rfl id

theorem enrolAct_slotsKept (a : Place × Nat) : SlotsKept s (enrolAct l corr t a s) := by
  unfold enrolAct
  repeat' split
  all_goals exact .of_eq rfl rfl rfl id

/-- A command on an ACTIVE or HELD entry keeps what its act keeps (R5, R6, R8 to R10). -/
theorem onEnrolled_slotsKept {act : State → State} (hact : SlotsKept s (act s)) :
    SlotsKept s (onEnrolled l corr t act s) :=
  onEnrolled_keeps (SlotsKept s) (fun code => answer_slotsKept s l corr code) hact

theorem releaseTerminalAct_slotsKept : SlotsKept s (releaseTerminalAct l corr t s) := by
  refine onEnrolled_slotsKept l corr t s ?_
  unfold releaseTerminalEnrolled
  split <;> exact .of_eq rfl rfl rfl id

theorem moveAct_slotsKept (p : Place) : SlotsKept s (moveAct l corr t p s) := by
  refine onEnrolled_slotsKept l corr t s ?_
  unfold moveEnrolled
  repeat' split
  all_goals exact .of_eq rfl rfl rfl id

theorem terminalQueryAct_slotsKept : SlotsKept s (terminalQueryAct l corr b s) := by
  unfold terminalQueryAct
  split <;> exact answer_slotsKept s _ _ _ _

theorem keyLoadAct_slotsKept (a : LoadBytes) : SlotsKept s (keyLoadAct l corr a s) := by
  unfold keyLoadAct keyLoadFamily
  repeat' split
  all_goals exact .of_eq rfl rfl rfl id

theorem rollFamilyAct_slotsKept : SlotsKept s (rollFamilyAct l corr b s) := by
  unfold rollFamilyAct rollFamilyOn
  dsimp only
  repeat' split
  all_goals exact .of_eq rfl rfl rfl id

theorem retireFamilyAct_slotsKept : SlotsKept s (retireFamilyAct l corr b s) := by
  unfold retireFamilyAct retireFamilyOn
  dsimp only
  repeat' split
  all_goals exact .of_eq rfl rfl rfl id

theorem familyQueryAct_slotsKept : SlotsKept s (familyQueryAct l corr b s) := by
  unfold familyQueryAct
  split <;> exact answer_slotsKept s _ _ _ _

theorem setCeilingAct_slotsKept (digits : List Byte) : SlotsKept s (setCeilingAct l corr b digits s) := by
  unfold setCeilingAct
  repeat' split
  all_goals exact .of_eq rfl rfl rfl id

theorem routeUpAct_slotsKept : SlotsKept s (routeUpAct l corr r c s) := by
  unfold routeUpAct
  dsimp only
  split <;> exact .of_eq rfl rfl rfl id

theorem streamOpenAct_slotsKept (n renew : Byte) : SlotsKept s (streamOpenAct l corr n renew r c s) := by
  unfold streamOpenAct
  repeat' split
  all_goals exact .of_eq rfl rfl rfl id

theorem routeQueryAct_slotsKept : SlotsKept s (routeQueryAct l corr b s) := by
  unfold routeQueryAct
  repeat' split
  all_goals exact answer_slotsKept s _ _ _ _

theorem setClockAct_slotsKept (time : ClockTime) : SlotsKept s (setClockAct l corr time s) := by
  unfold setClockAct
  repeat' split
  all_goals exact .of_eq rfl rfl rfl id

theorem setCutoverAct_slotsKept (a : Byte × Byte × Byte) : SlotsKept s (setCutoverAct l corr a s) := by
  unfold setCutoverAct
  repeat' split
  all_goals exact .of_eq rfl rfl rfl id

theorem routeDefineAct_slotsKept (a : DefineBytes) : SlotsKept s (routeDefineAct l corr a s) := by
  have habandon : ∀ code, SlotsKept s (s.abandon.answer l corr code) := fun code =>
    (abandon_slotsKept s).trans (answer_slotsKept _ l corr code)
  unfold routeDefineAct routeDefineStaged
  split
  · split
    · split
      · split
        · exact habandon _
        · exact .of_eq rfl rfl rfl id
      · exact habandon _
    · exact habandon _
  · exact answer_slotsKept s _ _ _

theorem faultReadAct_slotsKept : SlotsKept s (faultReadAct l corr s) := by
  unfold faultReadAct
  dsimp only
  split <;> exact .of_eq rfl rfl rfl id

/-! ### Acts that move records (R117 to R130, R146) -/

theorem routeDownAct_slotsKept : SlotsKept s (routeDownAct l corr r c s) := by
  unfold routeDownAct
  dsimp only
  split
  · exact (takeDown_slotsKept s r .command .routeDown).trans (answer_slotsKept _ l corr .done)
  · exact .of_eq rfl rfl rfl id

theorem pullOneAct_slotsKept : SlotsKept s (pullOneAct l corr r c s) := by
  unfold pullOneAct
  split
  · split
    · split
      · exact answer_slotsKept s _ _ _
      · next ho => exact (offer_slotsKept ho).trans (setLink_slotsKept _ l _)
    · exact answer_slotsKept s _ _ _
  · exact answer_slotsKept s _ _ _

theorem pullBlockAct_slotsKept (n : Byte) : SlotsKept s (pullBlockAct l corr n r c s) := by
  unfold pullBlockAct
  split
  · have hrun := offerRun_keeps (SlotsKept s) (r := r) (c := c) (corr := corr)
      (fun _ _ _ hb _ ho => hb.trans (offer_slotsKept ho)) (blockCount n.toNat) s (.refl s)
    exact hrun.trans (setLink_slotsKept _ l _)
  · exact answer_slotsKept s _ _ _

theorem ackOneAct_slotsKept (batch sq : Nat) : SlotsKept s (ackOneAct l corr batch sq r c s) := by
  unfold ackOneAct
  split
  · exact (acknowledge_slotsKept s r c _).trans (answer_slotsKept _ _ _ _ _)
  · exact answer_slotsKept s _ _ _

theorem ackOldestAct_slotsKept : SlotsKept s (ackOldestAct l corr r c s) := by
  unfold ackOldestAct
  split
  · exact answer_slotsKept s _ _ _
  · exact (acknowledge_slotsKept s r c _).trans (answer_slotsKept _ _ _ _ _)

theorem ackThroughAct_slotsKept (batch sq : Nat) : SlotsKept s (ackThroughAct l corr batch sq r c s) := by
  have hacked := acknowledgeAll_keeps (SlotsKept s) (r := r) (c := c)
    (fun u id hu => hu.trans (acknowledge_slotsKept u r c id)) (s.covered r batch sq) s (.refl s)
  exact hacked.trans (answer_slotsKept _ _ _ _ _)

theorem closeBatchAct_slotsKept : SlotsKept s (closeBatchAct l corr b s) := by
  unfold closeBatchAct
  split
  · split
    · exact answer_slotsKept s _ _ _
    · split
      · split
        · exact (requestClose_slotsKept s _ .manual).trans (answer_slotsKept _ _ _ _ _)
        · exact answer_slotsKept s _ _ _
      · exact answer_slotsKept s _ _ _
  · exact answer_slotsKept s _ _ _

end

/-! ### Setup and ERASE (R71, R97, R163 to R166, R173) -/

/-- While the part is not RUNNING no wrap is in flight (R71). -/
theorem State.StoreOk.not_busy {s : State} (h : s.StoreOk) (hp : s.status.part ≠ .running) (k : ReservationKept)
    (w : ReservationWork) : s.engine ≠ .busy k w := fun he => hp (h.running k w he).1

/-- A SETUP BEGIN that passes finds no wrap in flight: the part is not RUNNING, or nothing is in transit (R71, R163). -/
theorem openSetup_slotsKept {s : State} (h : s.StoreOk)
    (hempty : ¬ (s.status.part = .running ∧ s.nothingInTransit = false)) (n : Nat) (flags : Byte) :
    SlotsKept s (s.openSetup n flags) := by
  refine ⟨id, fun _ => id, rfl, fun k w he => absurd ?_ hempty⟩
  have hbusy : s.engine = .busy k w := he
  obtain ⟨hrun, -⟩ := h.running k w hbusy
  exact ⟨hrun, by simp [State.nothingInTransit, hbusy, Engine.isIdle]⟩

theorem setupBeginAct_storeOk {s : State} (hs : s.StoreOk) (l : LinkId) (corr : Byte) (a : Byte × Byte) :
    (setupBeginAct l corr a s).StoreOk := by
  have hans : ∀ {b : State}, SlotsKept s b → ∀ code, (b.answer l corr code).StoreOk := fun hb code =>
    (hs.kept hb).kept (answer_slotsKept _ l corr code)
  unfold setupBeginAct
  split
  · exact hans (abandon_slotsKept s) _
  · split
    · exact hans (.refl s) _
    · split
      · exact hans (.refl s) _
      · next hempty => exact hans (openSetup_slotsKept hs hempty _ _) _

/-- SETUP END leaves a route's overflow part empty, or as it was on a route defined neither before nor after (R98). -/
theorem mem_overflow_atSetup {old new : Option RouteConfig} {q : RouteQueue} {now : ClockTime} {n : Nat}
    (h : n ∈ (queueAtSetup old new q now).overflow) : n ∈ q.overflow := by
  unfold queueAtSetup at h
  split at h
  · cases h
  · exact h
  · cases h

/-- A layout that fits has its pool slots in the record store (R96, R97). -/
theorem poolSlots_lt {config : Vector (Option RouteConfig) 4} (h : poolStart config ≤ Config.storeSlots) {n : Nat}
    (hn : n ∈ poolSlots config) : n < Config.storeSlots := by
  obtain ⟨-, hlt⟩ := List.mem_range'_1.mp hn
  omega

theorem install_storeOk {s : State} (hs : s.StoreOk) (hp : s.status.part ≠ .running) {g : Staged} (hfits : g.fits = true) :
    (s.install g).StoreOk := by
  have hlayout : poolStart g.config ≤ Config.storeSlots := of_decide_eq_true hfits
  rw [storeOk_iff]
  refine ⟨rfl, ?_, hlayout, fun k w he => absurd he (hs.not_busy hp k w)⟩
  rintro n ((⟨_, hrec⟩ | hfree | ⟨r, hover⟩) | hkept)
  · cases hrec
  · exact poolSlots_lt hlayout hfree
  · simp only [State.install, Vec.get_gen] at hover
    exact hs.overflow r n (mem_overflow_atSetup hover)
  · exact hs.names_lt (Or.inr hkept)

theorem setupEndAct_storeOk {s : State} (hs : s.StoreOk) (l : LinkId) (corr : Byte) : (setupEndAct l corr s).StoreOk := by
  have habandon : ∀ code, (s.abandon.answer l corr code).StoreOk := fun code =>
    (hs.kept (abandon_slotsKept s)).kept (answer_slotsKept _ l corr code)
  unfold setupEndAct
  split
  · next hp =>
    split
    · next g _ =>
      split
      · split
        · next hfits => exact (install_storeOk hs (by simp [hp]) hfits).kept (answer_slotsKept _ _ _ _)
        · exact habandon _
      · exact habandon _
    · exact habandon _
  · exact hs.kept (answer_slotsKept s _ _ _)

/-- A state with an empty record store, no route defined and an IDLE engine meets the invariant (R114). -/
theorem emptyStore_storeOk {s : State} (hq : s.qm = QueueManager.empty)
    (hc : s.status.config = Vector.replicate 4 none) (he : s.engine = .idle) : s.StoreOk := by
  rw [storeOk_iff, hq, hc, he]
  refine ⟨rfl, fun n hn => ?_, by decide, nofun⟩
  rw [State.Names, hq, he] at hn
  rcases hn with (⟨_, hrec⟩ | hfree | ⟨r, hover⟩) | ⟨_, hk, -⟩
  · cases hrec
  · cases hfree
  · rw [QueueManager.empty, Vec.get_replicate] at hover
    cases hover
  · cases hk

theorem eraseAct_storeOk (l : LinkId) (corr : Byte) (s : State) : (eraseAct l corr s).StoreOk :=
  emptyStore_storeOk rfl rfl rfl

/-! ### Events of the links, the keys and the clock -/

theorem frameArrives_slotsKept (l : LinkId) (body : List Byte) (s : State) :
    (∃ t, frameArrives l body s = .gone t ∧ SlotsKept s t) ∨ (∃ t, frameArrives l body s = .taken t ∧ SlotsKept s t) :=
  frameArrives_keeps (SlotsKept s) (.refl s) (fun b k hb => hb.trans (setLink_slotsKept b l k)) body

/-- Discarding the answer of the wrap in flight leaves its reservation (R72). -/
theorem Engine.kept_discard (e : Engine) (i : LaneNo) : (e.discard i).kept = e.kept := by
  cases e with
  | idle => rfl
  | cut k => rfl
  | busy k w =>
    simp only [Engine.discard]
    split <;> rfl

theorem resetLink_slotsKept (s : State) (l : LinkId) (rx : Receiver) : SlotsKept s (s.resetLink l rx) := by
  cases l with
  | lane i =>
    refine ⟨id, fun n hn => ?_, rfl, fun k w he => ?_⟩
    · have hkept : (s.resetLink (.lane i) rx).engine.kept = s.engine.kept := Engine.kept_discard s.engine i
      rw [State.Names, hkept] at hn
      exact hn
    · obtain ⟨w', hw, -⟩ := Engine.discard_busy he
      exact ⟨⟨w', hw⟩, id⟩
  | dispatch => exact .of_eq rfl rfl rfl id
  | service => exact .of_eq rfl rfl (abandoned_config _) abandoned_running

section

variable (s : State)

theorem execLinkReset_slotsKept (l : LinkId) (corr : Byte) (p : List Byte) :
    ∃ t, execLinkReset l corr p s = .next t ∧ SlotsKept s t := by
  refine ⟨_, rfl, ?_⟩
  split
  · split
    · rcases frameArrives_slotsKept l (0x0F#8 :: corr :: p) s with ⟨t, he, hk⟩ | ⟨t, he, hk⟩ <;> rw [he] <;> exact hk
    · exact (resetLink_slotsKept s l .hunting).trans (answer_slotsKept _ _ _ _)
  · exact .refl s

theorem execFrameBad_slotsKept (l : LinkId) (chars : List LineChar) :
    ∃ t, execFrameBad l chars s = .next t ∧ SlotsKept s t := by
  refine ⟨_, rfl, ?_⟩
  repeat' split
  all_goals exact .of_eq rfl rfl rfl id

theorem execLineBreak_slotsKept (l : LinkId) : ∃ t, execLineBreak l s = .next t ∧ SlotsKept s t := by
  refine ⟨_, rfl, ?_⟩
  have hlow := setLink_slotsKept s l { s.link l with low := true }
  dsimp only
  split
  · exact hlow.trans (resetLink_slotsKept _ l .inBreak)
  · exact hlow

theorem execUnknownKind_slotsKept (l : LinkId) (corr kind : Byte) (p : List Byte) :
    ∃ t, execUnknownKind l corr kind p s = .next t ∧ SlotsKept s t := by
  refine ⟨_, rfl, ?_⟩
  split
  · exact .refl s
  · rcases frameArrives_slotsKept l (kind :: corr :: p) s with ⟨t, he, hk⟩ | ⟨t, he, hk⟩ <;> rw [he]
    · exact hk
    · exact hk.trans (answer_slotsKept _ _ _ _)

theorem execLoadCompletion_slotsKept (f : FamilyNo) : ∃ t, execLoadCompletion f s = .next t ∧ SlotsKept s t := by
  refine ⟨_, rfl, ?_⟩
  split
  · split
    · unfold State.finishLoad
      dsimp only
      split <;> exact .of_eq rfl rfl rfl id
    · exact .refl s
  · exact .refl s

theorem execRollCompletion_slotsKept (f : FamilyNo) : ∃ t, execRollCompletion f s = .next t ∧ SlotsKept s t := by
  refine ⟨_, rfl, ?_⟩
  split
  · split <;> exact .of_eq rfl rfl rfl id
  · exact .refl s

theorem execStreamOffer_slotsKept (l : LinkId) : ∃ t, execStreamOffer l s = .next t ∧ SlotsKept s t := by
  refine ⟨_, rfl, ?_⟩
  split
  · exact nextMessage_slotsKept s l
  · exact .refl s

theorem execTransmitComplete_slotsKept (l : LinkId) : ∃ t, execTransmitComplete l s = .next t ∧ SlotsKept s t := by
  refine ⟨_, rfl, ?_⟩
  split
  · exact (setLink_slotsKept s l _).trans (nextMessage_slotsKept _ l)
  · exact .refl s

theorem execAckTimerExpiry_slotsKept (r : RouteNo) : ∃ t, execAckTimerExpiry r s = .next t ∧ SlotsKept s t := by
  refine ⟨_, rfl, ?_⟩
  split
  · exact (takeDown_slotsKept s r .timeout .timeout).trans (.of_eq rfl rfl rfl id)
  · exact .refl s

theorem execTick_slotsKept : ∃ t, execTick s = .next t ∧ SlotsKept s t := by
  refine ⟨_, rfl, ?_⟩
  dsimp only
  split <;> exact .of_eq rfl rfl rfl id

theorem execNearWarning_slotsKept : ∃ t, execNearWarning s = .next t ∧ SlotsKept s t := by
  refine ⟨_, rfl, ?_⟩
  split <;> exact .of_eq rfl rfl rfl id

theorem execCutoverMatch_slotsKept : ∃ t, execCutoverMatch s = .next t ∧ SlotsKept s t := by
  refine ⟨_, rfl, ?_⟩
  repeat' split
  all_goals exact .of_eq rfl rfl rfl id

theorem execCutoverClosingStart_slotsKept : ∃ t, execCutoverClosingStart s = .next t ∧ SlotsKept s t := by
  refine ⟨_, rfl, ?_⟩
  split <;> exact .of_eq rfl rfl rfl id

theorem execCutoverRouteClose_slotsKept : ∃ t, execCutoverRouteClose s = .next t ∧ SlotsKept s t := by
  refine ⟨_, rfl, ?_⟩
  split
  · split
    · exact (askClose_slotsKept s _).trans (.of_eq rfl rfl rfl id)
    · exact .of_eq rfl rfl rfl id
  · exact .refl s

theorem execCutoverFamilyRoll_slotsKept : ∃ t, execCutoverFamilyRoll s = .next t ∧ SlotsKept s t := by
  refine ⟨_, rfl, ?_⟩
  split
  · split
    · split
      · exact .refl s
      · unfold State.rollTurn
        dsimp only
        repeat' split
        all_goals exact .of_eq rfl rfl rfl id
    · exact .refl s
  · exact .refl s

theorem execDeferredClose_slotsKept (r : RouteNo) : ∃ t, execDeferredClose r s = .next t ∧ SlotsKept s t := by
  refine ⟨_, rfl, ?_⟩
  split
  · exact settleDeferred_slotsKept s r
  · exact .refl s

/-! ### Supply and retention (R94, R97, R113, R171 to R173) -/

/-- The working fields are lost, the retained ones are not (R75, R171). -/
theorem Engine.kept_lapse (e : Engine) : e.lapse.kept = e.kept := by
  cases e <;> rfl

theorem execPowerLoss_slotsKept : ∃ t, execPowerLoss s = .next t ∧ SlotsKept s t := by
  refine ⟨_, rfl, ?_⟩
  split
  · exact .refl s
  · refine ⟨id, fun n hn => ?_, rfl, fun k w he => absurd he (lapse_not_busy s.engine k w)⟩
    rw [State.Names] at hn
    dsimp only [State.lapse] at hn
    rwa [Engine.kept_lapse] at hn

theorem execResetLine_slotsKept : ∃ t, execResetLine s = .next t ∧ SlotsKept s t := by
  refine ⟨_, rfl, ?_⟩
  split <;> exact .of_eq rfl rfl rfl id

/-- The slot that an abandoned wrap gives back is the pool slot it had reserved (R94). -/
theorem reserved_of_mem_releasedSlots {e : Engine} {n : Nat} (h : n ∈ e.releasedSlots) :
    ∃ k, e.kept = some k ∧ k.slot = .pool n := by
  unfold Engine.releasedSlots at h
  split at h
  · rw [List.mem_singleton.mp h]
    exact ⟨_, rfl, rfl⟩
  · rw [List.mem_singleton.mp h]
    exact ⟨_, rfl, rfl⟩
  · cases h

/-- At the start of a warm restore the wrap in flight is abandoned and its pool slot joins the free list (R94, R172). -/
theorem restoreStart_slotsKept (straps : BitVec 6) : SlotsKept s (restoreStart s straps) := by
  refine ⟨id, ?_, restoreStart_config s straps, nofun⟩
  rintro n ((hrec | hfree | hover) | ⟨_, hk, -⟩)
  · exact Or.inl (Or.inl hrec)
  · rw [restoreStart_poolFree] at hfree
    rcases List.mem_append.mp hfree with hfree | hslot
    · exact Or.inl (Or.inr (Or.inl hfree))
    · exact Or.inr (reserved_of_mem_releasedSlots hslot)
  · exact Or.inl (Or.inr (Or.inr hover))
  · cases hk

/-- The warm restore, stage by stage: the wrap is abandoned and the routes rewound, and after that no record and no free slot
is touched (R94, R113, R172). -/
theorem warmRestore_slotsKept (straps : BitVec 6) : SlotsKept s (s.warmRestore straps) := by
  have hstage : ∀ {u v : State}, StoreKept u v → StartKept u v → SlotsKept u v := fun hstore hstart =>
    .of_store hstore hstart.engine hstart.part.trans
  have hsettle : ∀ u : State, SlotsKept u u.settleAll := fun u =>
    foldl_keeps (SlotsKept u) _ (fun v r hv => hv.trans (hstage (settleWaiting_store v r) (settleWaiting_start v r))) _ _
      (.refl u)
  have htail : ∀ u : State, SlotsKept u u.restoreDispatch.releaseAll := fun u => .of_eq rfl rfl rfl id
  rw [warmRestore_eq]
  have hrewound : SlotsKept s (rewindEach (restoreStart s straps) (List.finRange 4)) :=
    foldl_keeps (SlotsKept s) _ (fun v r hv => hv.trans (rewind_slotsKept v r)) _ _ (restoreStart_slotsKept s straps)
  have hundone := (hrewound.trans (hsettle _)).trans (hstage (undoAll_store _) (undoAll_start _))
  exact (hundone.trans (htail _)).trans (hstage (resume_store _) (resume_start _))

theorem execWarmRestore_slotsKept (straps : BitVec 6) : ∃ t, execWarmRestore straps s = .next t ∧ SlotsKept s t := by
  refine ⟨_, rfl, ?_⟩
  split
  · exact warmRestore_slotsKept s straps
  · exact .refl s

end

theorem execStoreLost_storeOk {s : State} (hs : s.StoreOk) (straps : BitVec 6) :
    ∃ t, execStoreLost straps s = .next t ∧ t.StoreOk := by
  refine ⟨_, rfl, ?_⟩
  split
  · exact emptyStore_storeOk rfl rfl rfl
  · exact hs

/-! ### Every step -/

section

variable {l : LinkId} {corr b : Byte} {p : List Byte} {s : State}

/-- What the part does with a request before its own act keeps the invariant; so the request does where its act does. -/
theorem request_storeOk (hs : s.StoreOk) {α : Type} {kind : Byte} {ring : Nat} {parse : List Byte → Option α}
    {spoil : State → State} {act : α → State → State} (hspoil : ∀ u, SlotsKept u (spoil u))
    (hact : ∀ a u, u.StoreOk → (act a u).StoreOk) : (request kind ring parse spoil l corr p act s).StoreOk :=
  request_keeps State.StoreOk hs (fun h => h.kept (setLink_slotsKept _ l _)) (fun h => h.kept (setLink_slotsKept _ l _))
    (fun u h _ => h.kept (setLink_slotsKept u l _)) (fun u _ h _ => h.kept (answer_slotsKept u _ _ _))
    (fun u h _ => (h.kept (hspoil u)).kept (answer_slotsKept _ _ _ _)) (fun a u _ _ h _ _ _ => hact a u h)

/-- A request that spoils nothing, whose act names no new slot. -/
theorem plainRequest_storeOk (hs : s.StoreOk) {α : Type} {kind : Byte} {ring : Nat} {parse : List Byte → Option α}
    {act : α → State → State} (hact : ∀ a u, SlotsKept u (act a u)) :
    (request kind ring parse id l corr p act s).StoreOk :=
  request_storeOk hs SlotsKept.refl fun a u hu => hu.kept (hact a u)

theorem laneRequest_storeOk (hs : s.StoreOk) {kind : Byte} {act : LaneNo → State → State}
    (hact : ∀ i u, SlotsKept u (act i u)) : (laneRequest kind l corr p act s).StoreOk :=
  laneRequest_keeps State.StoreOk hs (fun h => h.kept (setLink_slotsKept _ l _))
    (fun h => h.kept (setLink_slotsKept _ l _)) (fun u h _ => h.kept (setLink_slotsKept u l _))
    (fun u _ h _ => h.kept (answer_slotsKept u _ _ _)) (fun i u _ h _ _ _ => h.kept (hact i u))

theorem onRoute_slotsKept {act : RouteNo → RouteConfig → State → State} (hact : ∀ r c, SlotsKept s (act r c s)) :
    SlotsKept s (onRoute l corr b act s) :=
  onRoute_keeps (SlotsKept s) (fun code => answer_slotsKept s l corr code) fun r c _ _ => hact r c

theorem routeCommand_storeOk (hs : s.StoreOk) {kind : Byte} {act : RouteNo → RouteConfig → State → State}
    (hact : ∀ r c u, SlotsKept u (act r c u)) : (routeCommand kind l corr p act s).StoreOk :=
  plainRequest_storeOk hs fun _ u => onRoute_slotsKept fun r c => hact r c u

theorem onTerminal_slotsKept {α : Type} {fields : Option α} {act : TerminalNo → α → State → State}
    (hact : ∀ t a, SlotsKept s (act t a s)) : SlotsKept s (onTerminal l corr b fields act s) :=
  onTerminal_keeps (SlotsKept s) (fun code => answer_slotsKept s l corr code) fun t a _ => hact t a

theorem terminalCommand_storeOk (hs : s.StoreOk) {kind : Byte} {act : TerminalNo → State → State}
    (hact : ∀ t u, SlotsKept u (act t u)) : (terminalCommand kind l corr p act s).StoreOk :=
  plainRequest_storeOk hs fun _ u => onTerminal_slotsKept fun t _ => hact t u

/-- An event that names no new slot keeps the invariant. -/
theorem storeOk_of_slotsKept (hs : s.StoreOk) {o : Host.Outcome State Fault Refusal}
    (h : ∃ t, o = .next t ∧ SlotsKept s t) : ∃ t, o = .next t ∧ t.StoreOk := by
  obtain ⟨t, he, hk⟩ := h
  exact ⟨t, he, hs.kept hk⟩

end

/-- Every command answers next and keeps the record store in order. -/
theorem exec_storeOk (c : Instr) {s : State} (hs : s.StoreOk) : ∃ t, exec c s = .next t ∧ t.StoreOk := by
  cases c with
  | auth l corr p => exact ⟨_, rfl, laneRequest_storeOk hs fun i u => wrapRequestAct_slotsKept corr u .auth i p⟩
  | refund l corr p => exact ⟨_, rfl, laneRequest_storeOk hs fun i u => wrapRequestAct_slotsKept corr u .refund i p⟩
  | reversal l corr p => exact ⟨_, rfl, laneRequest_storeOk hs fun i u => wrapRequestAct_slotsKept corr u .reversal i p⟩
  | laneStatus l corr p => exact ⟨_, rfl, laneRequest_storeOk hs fun _ u => answer_slotsKept u _ _ _ _⟩
  | linkReset l corr p => exact storeOk_of_slotsKept hs (execLinkReset_slotsKept s l corr p)
  | frameBad l chars => exact storeOk_of_slotsKept hs (execFrameBad_slotsKept s l chars)
  | lineBreak l => exact storeOk_of_slotsKept hs (execLineBreak_slotsKept s l)
  | lineBreakEnd l => exact ⟨_, rfl, hs.kept (setLink_slotsKept s l _)⟩
  | grant => exact execGrant_storeOk hs
  | completion => exact execCompletion_storeOk hs
  | enrol l corr p =>
    exact ⟨_, rfl, plainRequest_storeOk hs fun _ u => onTerminal_slotsKept fun t a => enrolAct_slotsKept l corr t u a⟩
  | holdTerminal l corr p =>
    exact ⟨_, rfl, terminalCommand_storeOk hs fun t u => onEnrolled_slotsKept l corr t u (.of_eq rfl rfl rfl id)⟩
  | releaseTerminal l corr p => exact ⟨_, rfl, terminalCommand_storeOk hs (releaseTerminalAct_slotsKept l corr)⟩
  | move l corr p =>
    exact ⟨_, rfl, plainRequest_storeOk hs fun _ u => onTerminal_slotsKept fun t a => moveAct_slotsKept l corr t u a⟩
  | retire l corr p =>
    exact ⟨_, rfl, terminalCommand_storeOk hs fun t u => onEnrolled_slotsKept l corr t u (.of_eq rfl rfl rfl id)⟩
  | setFloor l corr p =>
    exact ⟨_, rfl, plainRequest_storeOk hs fun _ u =>
      onTerminal_slotsKept fun t _ => onEnrolled_slotsKept l corr t u (.of_eq rfl rfl rfl id)⟩
  | terminalQuery l corr p => exact ⟨_, rfl, plainRequest_storeOk hs (terminalQueryAct_slotsKept l corr)⟩
  | keyLoad l corr p => exact ⟨_, rfl, plainRequest_storeOk hs fun a u => keyLoadAct_slotsKept l corr u a⟩
  | loadCompletion f => exact storeOk_of_slotsKept hs (execLoadCompletion_slotsKept s f)
  | rollFamily l corr p => exact ⟨_, rfl, plainRequest_storeOk hs (rollFamilyAct_slotsKept l corr)⟩
  | rollCompletion f => exact storeOk_of_slotsKept hs (execRollCompletion_slotsKept s f)
  | retireFamily l corr p => exact ⟨_, rfl, plainRequest_storeOk hs (retireFamilyAct_slotsKept l corr)⟩
  | familyQuery l corr p => exact ⟨_, rfl, plainRequest_storeOk hs (familyQueryAct_slotsKept l corr)⟩
  | setCeiling l corr p => exact ⟨_, rfl, plainRequest_storeOk hs fun a u => setCeilingAct_slotsKept l corr a.1 u a.2⟩
  | holdLane l corr p => exact ⟨_, rfl, plainRequest_storeOk hs fun a u => laneHoldAct_slotsKept l corr a u true⟩
  | releaseLane l corr p => exact ⟨_, rfl, plainRequest_storeOk hs fun a u => laneHoldAct_slotsKept l corr a u false⟩
  | routeUp l corr p => exact ⟨_, rfl, routeCommand_storeOk hs (routeUpAct_slotsKept l corr)⟩
  | routeDown l corr p => exact ⟨_, rfl, routeCommand_storeOk hs (routeDownAct_slotsKept l corr)⟩
  | pullOne l corr p => exact ⟨_, rfl, routeCommand_storeOk hs (pullOneAct_slotsKept l corr)⟩
  | pullBlock l corr p =>
    exact ⟨_, rfl, plainRequest_storeOk hs fun a u =>
      onRoute_slotsKept fun r c => pullBlockAct_slotsKept l corr r c u a.2⟩
  | streamOpen l corr p =>
    exact ⟨_, rfl, plainRequest_storeOk hs fun a u =>
      onRoute_slotsKept fun r c => streamOpenAct_slotsKept l corr r c u a.2.1 a.2.2⟩
  | streamClose l corr p => exact ⟨_, rfl, routeCommand_storeOk hs fun _ _ _ => .of_eq rfl rfl rfl id⟩
  | streamOffer l => exact storeOk_of_slotsKept hs (execStreamOffer_slotsKept s l)
  | transmitComplete l => exact storeOk_of_slotsKept hs (execTransmitComplete_slotsKept s l)
  | ackOne l corr p =>
    exact ⟨_, rfl, plainRequest_storeOk hs fun a u =>
      onRoute_slotsKept fun r c => ackOneAct_slotsKept l corr r c u a.2.1 a.2.2⟩
  | ackOldest l corr p => exact ⟨_, rfl, routeCommand_storeOk hs (ackOldestAct_slotsKept l corr)⟩
  | ackThrough l corr p =>
    exact ⟨_, rfl, plainRequest_storeOk hs fun a u =>
      onRoute_slotsKept fun r c => ackThroughAct_slotsKept l corr r c u a.2.1 a.2.2⟩
  | ackTimerExpiry r => exact storeOk_of_slotsKept hs (execAckTimerExpiry_slotsKept s r)
  | tick => exact storeOk_of_slotsKept hs (execTick_slotsKept s)
  | nearWarning => exact storeOk_of_slotsKept hs (execNearWarning_slotsKept s)
  | cutoverMatch => exact storeOk_of_slotsKept hs (execCutoverMatch_slotsKept s)
  | cutoverClosingStart => exact storeOk_of_slotsKept hs (execCutoverClosingStart_slotsKept s)
  | cutoverRouteClose => exact storeOk_of_slotsKept hs (execCutoverRouteClose_slotsKept s)
  | cutoverFamilyRoll => exact storeOk_of_slotsKept hs (execCutoverFamilyRoll_slotsKept s)
  | setClock l corr p => exact ⟨_, rfl, plainRequest_storeOk hs fun a u => setClockAct_slotsKept l corr u a⟩
  | setCutover l corr p => exact ⟨_, rfl, plainRequest_storeOk hs fun a u => setCutoverAct_slotsKept l corr u a⟩
  | closeBatch l corr p => exact ⟨_, rfl, plainRequest_storeOk hs (closeBatchAct_slotsKept l corr)⟩
  | deferredClose r => exact storeOk_of_slotsKept hs (execDeferredClose_slotsKept s r)
  | setupBegin l corr p =>
    exact ⟨_, rfl, request_storeOk hs abandon_slotsKept fun a _ hu => setupBeginAct_storeOk hu l corr a⟩
  | routeDefine l corr p =>
    exact ⟨_, rfl, request_storeOk hs abandon_slotsKept fun a u hu => hu.kept (routeDefineAct_slotsKept l corr u a)⟩
  | setupEnd l corr p => exact ⟨_, rfl, request_storeOk hs abandon_slotsKept fun _ _ hu => setupEndAct_storeOk hu l corr⟩
  | statusRead l corr p => exact ⟨_, rfl, plainRequest_storeOk hs fun _ _ => .of_eq rfl rfl rfl id⟩
  | faultRead l corr p => exact ⟨_, rfl, plainRequest_storeOk hs fun _ u => faultReadAct_slotsKept l corr u⟩
  | routeQuery l corr p => exact ⟨_, rfl, plainRequest_storeOk hs (routeQueryAct_slotsKept l corr)⟩
  | erase l corr p => exact ⟨_, rfl, request_storeOk hs SlotsKept.refl fun _ u _ => eraseAct_storeOk l corr u⟩
  | warmRestore straps => exact storeOk_of_slotsKept hs (execWarmRestore_slotsKept s straps)
  | storeLost straps => exact execStoreLost_storeOk hs straps
  | resetLine => exact storeOk_of_slotsKept hs (execResetLine_slotsKept s)
  | powerLoss => exact storeOk_of_slotsKept hs (execPowerLoss_slotsKept s)
  | retentionLoss => exact ⟨_, rfl, hs.kept (.of_eq rfl rfl rfl id)⟩
  | unknownKind l corr kind p => exact storeOk_of_slotsKept hs (execUnknownKind_slotsKept s l corr kind p)

/-- Settles O58: every slot number that stands in the state is followed as it moves between record, free list, overflow part and
reservation; a completion writes where its reservation says, SETUP END lists the pool of a layout that fits, and no other
command names a new slot. -/
theorem stepKeepsStoreOk : Obligations.StepKeepsStoreOk := by
  intro s t hs hstep
  unfold step at hstep
  split at hstep
  · cases hstep
    exact hs
  · next c rest _ =>
    have hb : State.StoreOk { s with pending := rest } := hs.kept (.of_eq rfl rfl rfl id)
    obtain ⟨u, hu, hok⟩ := exec_storeOk c hb
    rw [hu] at hstep
    cases hstep
    exact hok

end Sys2Proof.Machine
end

section
/-! The routes' queues (06_record_store_and_route_queues.md, R99, R104, R109 to R111; 08_cut_over_and_batch_close.md, R146): the
rewind of a route, a close requested, and a close performed. -/

namespace Sys2Proof.Machine

/-! ### The rewind (R99, R104) -/

theorem Record.rewound_in_place (ns : List Nat) (n : Nat) (rec : Record) :
    (if n ∈ ns then rec.rewound else rec) =
      if n ∈ ns ∧ rec.state = .offered then { rec with state := .pending } else rec := by
  by_cases hn : n ∈ ns
  · rw [if_pos hn, Record.rewound]
    simp only [hn, true_and]
  · rw [if_neg hn, if_neg fun h => hn h.1]

/-- Settles O30: block by block; the reports reach the history entries of the records that were OFFERED. -/
theorem rewindReturnsOffered : Obligations.RewindReturnsOffered := by
  intro s r
  dsimp only
  refine ⟨fun n rec hrec => ?_, fun n hn => ?_, rfl, fun q hq => rewind_queue_ne s (Ne.symm hq), ?_, ?_, ?_, fun c hc => ?_,
    fun tn => rewind_term s r tn, rfl, rfl, rfl, rfl, rfl, rfl, rfl, rfl⟩
  · rw [rewind_at, hrec, Option.map_some, Record.rewound_in_place]
  · rw [rewind_at, hn, Option.map_none]
  · rw [rewind_queue_self]
    exact ⟨rfl, rfl, seekOffer_atFirstPending _ _ _⟩
  · rw [rewind_queue_self]
    exact ⟨rfl, rfl, seekOffer_atFirstPending _ _ _⟩
  · rw [rewind_queue_self]
    rfl
  · rw [rewind_queue_self, RouteQueue.rewound, hc]
    rfl

/-! ### A close requested (R109, R111) -/

section

variable {s : State} {r : RouteNo} {p : ClosePending} (why : CloseReason)

theorem requestClose_joined (hp : (s.queue r).pending = some p) :
    s.requestClose r why = (s, .joined p.reason p.wait) := by
  simp [State.requestClose, hp]

theorem requestClose_deferred (hp : (s.queue r).pending = none) (hb : (s.queue r).buffer ≠ none) :
    s.requestClose r why = (s.deferClose r why, .waits .buffer) := by
  simp [State.requestClose, hp, Option.isSome_iff_ne_none.mpr hb]

theorem requestClose_waits (hp : (s.queue r).pending = none) (hb : (s.queue r).buffer = none)
    (hw : s.engine.servesRoute r = true) :
    s.requestClose r why = (s.setQueue r { s.queue r with pending := some ⟨why, .wrap, false⟩ }, .waits .wrap) := by
  simp [State.requestClose, hp, hb, hw]

theorem requestClose_performed (hp : (s.queue r).pending = none) (hb : (s.queue r).buffer = none)
    (hw : s.engine.servesRoute r = false) :
    s.requestClose r why = (s.performClose r why, .performed ⟨r, (s.queue r).batch, (s.queue r).nextSeq⟩) := by
  simp [State.requestClose, hp, hb, hw]

/-- A close pending on a buffer that has become FREE is performed with its reason as the deferred mark gives it (R111). -/
theorem settleDeferred_performed (hp : (s.queue r).pending = some p) (hwait : p.wait = .buffer)
    (hb : (s.queue r).buffer = none) (hw : s.engine.servesRoute r = false) :
    s.settleDeferred r = s.performClose r p.reasonNow := by
  simp [State.settleDeferred, hp, hwait, hb, hw]

theorem settleDeferred_waits (hp : (s.queue r).pending = some p) (hwait : p.wait = .buffer)
    (hb : (s.queue r).buffer = none) (hw : s.engine.servesRoute r = true) :
    s.settleDeferred r = s.setQueue r { s.queue r with pending := some { p with wait := .wrap } } := by
  simp [State.settleDeferred, hp, hwait, hb, hw]

end

theorem exec_deferredClose {s : State} (hon : s.supply = .on) (r : RouteNo) :
    exec (.deferredClose r) s = .next (s.settleDeferred r) :=
  congrArg Host.Outcome.next (if_pos (awake_of_on hon))

/-! ### CLOSE BATCH (R146) -/

section

variable {l : LinkId} {corr b : Byte} {r : RouteNo} {s : State}

theorem exec_closeBatch_heard (h : s.Hears l 1) (hl : isPartner l = true) :
    exec (.closeBatch l corr [b]) s = .next (closeBatchAct l corr b s) :=
  congrArg Host.Outcome.next (request_taken (parse := parseByte) (p := [b]) h (linkRing_of_isPartner hl) rfl)

theorem closeBatchAct_range (hp : s.status.part = .running) (hb : 4 ≤ b.toNat) :
    closeBatchAct l corr b s = s.answer l corr .badParameter := by
  simp [closeBatchAct, hp, indexOf_none b hb]

theorem closeBatchAct_undefined (hp : s.status.part = .running) (hb : b.toNat = r.val) (hd : s.defined r = false) :
    closeBatchAct l corr b s = s.answer l corr .routeUndefined := by
  simp [closeBatchAct, hp, indexOf_val b r hb, hd]

theorem closeBatchAct_cutover (hp : s.status.part = .running) (hb : b.toNat = r.val) (hd : s.defined r = true)
    (hc : s.cutover.stage ≠ .idle) : closeBatchAct l corr b s = s.answer l corr .cutoverActive := by
  simp [closeBatchAct, hp, indexOf_val b r hb, hd, hc]

/-- CLOSE BATCH of a defined route with the cut-over IDLE requests its close and answers the outcome (R146). -/
theorem closeBatchAct_taken (hp : s.status.part = .running) (hb : b.toNat = r.val) (hd : s.defined r = true)
    (hc : s.cutover.stage = .idle) : closeBatchAct l corr b s =
      (s.requestClose r .manual).1.answer l corr .done (s.requestClose r .manual).2.reply := by
  simp [closeBatchAct, hp, indexOf_val b r hb, hd, hc]

end

/-- Settles O41: the request by its four outcomes, CLOSE BATCH through its checks, DEFERRED_CLOSE by its two outcomes. -/
theorem closesRequested : Obligations.ClosesRequested := by
  refine ⟨fun s r why => ?request, fun id why w => ⟨rfl, rfl, rfl⟩, fun l corr s hh hl hp b => ?refused,
    fun l corr b r s hh hl hp hb hd => ?closeBatch, fun s r p hon hpend hwait hbuf => ?deferredClose⟩
  case request =>
    exact ⟨fun p hp => requestClose_joined why hp, fun hp => ⟨fun hb => requestClose_deferred why hp hb, fun hb =>
      ⟨fun hw => requestClose_waits why hp hb hw, fun hw => requestClose_performed why hp hb hw⟩⟩⟩
  case refused =>
    dsimp only
    rw [exec_closeBatch_heard hh hl]
    exact ⟨fun hb => congrArg _ (closeBatchAct_range hp hb), fun r hb hd => congrArg _ (closeBatchAct_undefined hp hb hd)⟩
  case closeBatch =>
    rw [exec_closeBatch_heard hh hl]
    exact ⟨fun hc => congrArg _ (closeBatchAct_cutover hp hb hd hc), fun hc => congrArg _ (closeBatchAct_taken hp hb hd hc)⟩
  case deferredClose =>
    rw [exec_deferredClose hon]
    exact ⟨fun hw => congrArg _ (settleDeferred_performed hpend hwait hbuf hw),
      fun hw => congrArg _ (settleDeferred_waits hpend hwait hbuf hw)⟩

/-! ### A close performed (R47, R109, R110) -/

/-- The subtotal list holds the route's terminals with a nonzero count, with their totals (R18, R110). -/
theorem mem_subtotals (ts : Vector Terminal 64) (r : RouteNo) (n : TerminalNo) (x : Totals) :
    (n, x) ∈ subtotals ts r ↔ (Vec.get ts n).route = r ∧ x = (Vec.get ts n).totals ∧
      (x.saleCount ≠ 0 ∨ x.refundCount ≠ 0 ∨ x.reversalCount ≠ 0 ∨ x.voidCount ≠ 0 ∨ x.offlineCount ≠ 0) := by
  unfold subtotals
  rw [List.mem_filterMap]
  constructor
  · rintro ⟨t, -, ht⟩
    dsimp only at ht
    split at ht
    · next hcond =>
      obtain ⟨hr, hcount⟩ := hcond
      cases ht
      exact ⟨hr, rfl, hcount⟩
    · cases ht
  · rintro ⟨hr, rfl, hcount⟩
    exact ⟨n, List.mem_finRange n, if_pos ⟨hr, hcount⟩⟩

/-- The subtotal list is in terminal order (R110). -/
theorem subtotals_sorted (ts : Vector Terminal 64) (r : RouteNo) : ((subtotals ts r).map (·.1)).Pairwise (· < ·) := by
  rw [List.pairwise_map]
  refine List.Pairwise.filterMap _ (fun t u htu x hx y hy => ?_) (List.pairwise_lt_finRange 64)
  dsimp only at hx hy
  split at hx
  · split at hy
    · cases hx
      cases hy
      exact htu
    · cases hy
  · cases hx

/-- With its totals zeroed an entry passes the release test where it is CLOSING, nothing of it is PENDING or OFFERED and no
wrap for it is in flight (R11, R109 step 5). -/
theorem releasable_zeroed (engine : Engine) (n : TerminalNo) (e : Terminal) :
    releasable engine n { e with totals := Totals.zero } = true ↔ e.state = .closing ∧
      (∀ h ∈ e.history, h.disposition ≠ .pending ∧ h.disposition ≠ .offered) ∧ engine.servesTerminal n = false := by
  simp [releasable, HistoryEntry.outstanding, and_assoc]

section

variable {s : State} {r : RouteNo} (why : CloseReason)

theorem performClose_queue : (s.performClose r why).queue r = (s.queue r).afterClose (s.closeRecord r why) :=
  Vec.get_put_same _ _ _

theorem performClose_account : (s.performClose r why).account r = (s.account r).afterClose :=
  Vec.get_put_same _ _ _

/-- A terminal of the route is released by the close, or keeps all but its totals (R11, R109). -/
theorem performClose_term_on {n : TerminalNo} (hn : (s.term n).route = r) :
    (s.performClose r why).term n = release s.engine n { s.term n with totals := Totals.zero } := by
  rw [performClose_term, if_pos hn]

theorem performClose_term_off {n : TerminalNo} (hn : (s.term n).route ≠ r) : (s.performClose r why).term n = s.term n := by
  rw [performClose_term, if_neg hn]

end

/-- Settles O42: block by block; the route's terminals by the release test on their zeroed entries. -/
theorem closePerformed : Obligations.ClosePerformed := by
  intro s r why
  dsimp only
  refine ⟨?record, ?batch, ?sequence, ?opened, ?pending, ?full, ?live, ?store, ?overflow, performClose_account why,
    fun n hn => ⟨fun hfree => ?released, fun hkept => ?kept⟩, fun n hn => performClose_term_off why hn,
    fun x hx => performClose_ne s why (Ne.symm hx), rfl, rfl, rfl, rfl, rfl, rfl, rfl, rfl, rfl⟩
  case record =>
    refine ⟨s.closeRecord r why, ?_, rfl, rfl, rfl, rfl, rfl, rfl, rfl, rfl, rfl, subtotals_sorted _ _, mem_subtotals _ _⟩
    rw [performClose_queue]
    rfl
  case released =>
    rw [performClose_term_on why hn, release, if_pos ((releasable_zeroed _ _ _).mpr hfree)]
  case kept =>
    rw [performClose_term_on why hn, release, if_neg (mt (releasable_zeroed _ _ _).mp hkept)]
  all_goals
    rw [performClose_queue]
    rfl

end Sys2Proof.Machine
end

section
/-! The dispatch state (07_dispatch_and_acknowledgement.md): every step keeps the configurations and the dispatch state of every
defined route in range. -/

namespace Sys2Proof.Machine

/-! ### The dispatch state of one route (R115, R118, R120, R121, R124, R130, R131) -/

section

variable {d : RouteDispatch} {c : RouteConfig}

/-- A route that offers, times and streams nothing has a range to keep for e and i alone (R115). -/
theorem RouteDispatch.ok_quiet (he : 1 ≤ d.e ∧ d.e ≤ c.plus)
    (htag : d.tag ≤ 65535) (ho : d.offered = []) (ht : d.timer = .stopped) (hst : d.stream = none) : d.Ok c where
  e := he
  window := by simp [ho]
  tag := htag
  down _ := ⟨ho, ht, hst⟩
  first h := absurd ht h
  timer n h := by simp [ht] at h
  stream st h := by simp [hst] at h

theorem RouteDispatch.Ok.takenDown (h : d.Ok c) (why : DownReason) : (d.takenDown why).Ok c :=
  ok_quiet h.e h.tag rfl rfl rfl

/-- ROUTE DOWN of a DOWN route writes its reason alone (R118). -/
theorem RouteDispatch.Ok.withReason (h : d.Ok c) (hd : d.state ≠ .up) (why : DownReason) :
    RouteDispatch.Ok { d with state := .down why } c := by
  obtain ⟨ho, ht, hst⟩ := h.down hd
  exact ok_quiet h.e h.tag ho ht hst

/-- ROUTE UP of a DOWN route starts e afresh at drain init, which is in range (R117, R164). -/
theorem RouteDispatch.Ok.broughtUp (h : d.Ok c) (hc : c.Ok) : (d.broughtUp c).Ok c where
  e := ⟨hc.init.1, hc.init.2⟩
  window := h.window
  tag := Nat.zero_le _
  down hup := absurd rfl hup
  first := h.first
  timer := h.timer
  stream := h.stream

/-- Writing another stream with counts in range, on an UP route, or none (R124, R125). -/
theorem RouteDispatch.Ok.withStream (h : d.Ok c) {o : Option OpenStream} (hup : d.state = .up ∨ o = none)
    (ho : ∀ st, o = some st → 1 ≤ st.current ∧ st.current ≤ st.base ∧ st.base ≤ 255) :
    RouteDispatch.Ok { d with stream := o } c where
  e := h.e
  window := h.window
  tag := h.tag
  down hd := by
    obtain ⟨hoffered, htimer, -⟩ := h.down hd
    exact ⟨hoffered, htimer, hup.resolve_left hd⟩
  first := h.first
  timer := h.timer
  stream := ho

theorem RouteDispatch.Ok.withoutStream (h : d.Ok c) : RouteDispatch.Ok { d with stream := none } c :=
  h.withStream (Or.inr rfl) nofun

/-- The count of an offer leaves the stream's counts in range, or closes the stream (R125). -/
theorem RouteDispatch.Ok.counted (h : d.Ok c) {st : OpenStream} (hst : d.stream = some st) (hup : d.state = .up) :
    RouteDispatch.Ok { d with stream := st.counted } c := by
  obtain ⟨hone, hle, hmax⟩ := h.stream st hst
  refine h.withStream (Or.inl hup) fun st' hc => ?_
  unfold OpenStream.counted at hc
  split at hc
  · cases hc
    dsimp only
    omega
  · split at hc
    · cases hc
      exact ⟨by dsimp only; omega, Nat.le_refl _, hmax⟩
    · cases hc

/-- A stream's reset with its link leaves the rest (R136). -/
theorem RouteDispatch.Ok.closedOn (h : d.Ok c) (l : LinkId) : (d.closedOn l).Ok c := by
  unfold RouteDispatch.closedOn
  split
  · split
    · exact h.withoutStream
    · exact h
  · exact h

/-- A running timer stands at the route's timeout at most (R131). -/
theorem startTimer_le {n : Nat} (h : startTimer c = .running n) : n ≤ c.timeout := by
  unfold startTimer at h
  split at h
  · cases h
  · cases h
    exact Nat.le_refl _

theorem nextTag_le {i : Nat} (h : i ≤ 65535) : nextTag i ≤ 65535 := by
  unfold nextTag
  split <;> omega

/-- An offer with the window open keeps the range: one entry joins, and the timer starts for a first one (R121, R131). -/
theorem RouteDispatch.Ok.offering (h : d.Ok c) (hup : d.state = .up) (hw : d.offered.length < c.window) {e : Nat}
    (he : 1 ≤ e ∧ e ≤ c.plus) (id : Identity) : (d.offering c id e).Ok c where
  e := he
  window := by simpa [RouteDispatch.offering] using hw
  tag := nextTag_le h.tag
  down hd := absurd hup hd
  first _ := by simp [RouteDispatch.offering]
  timer n hn := by
    simp only [RouteDispatch.offering] at hn
    split at hn
    · exact startTimer_le hn
    · exact h.timer n hn
  stream := h.stream

/-- An entry that leaves the list leaves a timer only where another entry is first (R130, R131). -/
theorem RouteDispatch.Ok.unlisting (h : d.Ok c) (id : Identity) : (d.unlisting c id).Ok c where
  e := h.e
  window := (List.erase_sublist.length_le).trans h.window
  tag := h.tag
  down hd := by
    obtain ⟨ho, ht, hst⟩ := h.down hd
    exact ⟨by simp [RouteDispatch.unlisting, ho], by simp [RouteDispatch.unlisting, ho, ht], hst⟩
  first ht hempty := by
    simp only [RouteDispatch.unlisting] at ht hempty
    split at ht
    · simp [hempty] at ht
    · next hfirst =>
      cases ho : d.offered with
      | nil => exact h.first ht ho
      | cons x rest =>
        have hx : x ≠ id := by simpa [ho] using hfirst
        simp [ho, hx] at hempty
  timer n hn := by
    simp only [RouteDispatch.unlisting] at hn
    split at hn
    · split at hn
      · cases hn
      · exact startTimer_le hn
    · exact h.timer n hn
  stream := h.stream

/-- A tick counts a running timer down and starts or stops none (R131). -/
theorem RouteDispatch.Ok.tick (h : d.Ok c) : RouteDispatch.Ok { d with timer := d.timer.tick } c where
  e := h.e
  window := h.window
  tag := h.tag
  down hd := by
    obtain ⟨ho, ht, hst⟩ := h.down hd
    exact ⟨ho, by simp [ht, AckTimer.tick], hst⟩
  first ht := h.first fun hstopped => ht (by simp [hstopped, AckTimer.tick])
  timer n hn := by
    cases hr : d.timer with
    | stopped => simp [hr, AckTimer.tick] at hn
    | running m =>
      simp only [hr, AckTimer.tick, AckTimer.running.injEq] at hn
      exact hn ▸ (Nat.sub_le m 1).trans (h.timer m hr)
  stream := h.stream

theorem dispatchAtSetup_ok (hc : c.Ok) : (dispatchAtSetup (some c)).Ok c :=
  RouteDispatch.ok_quiet ⟨hc.init.1, hc.init.2⟩ (Nat.zero_le _) rfl rfl rfl

theorem dispatchAtRestore_ok (hc : c.Ok) : (dispatchAtRestore (some c)).Ok c :=
  RouteDispatch.ok_quiet ⟨hc.init.1, hc.init.2⟩ (Nat.zero_le _) rfl rfl rfl

/-- What loss of supply leaves is in range of any configuration in range (R135, R171). -/
theorem RouteDispatch.absent_ok (hc : c.Ok) : RouteDispatch.absent.Ok c :=
  RouteDispatch.ok_quiet ⟨Nat.le_refl _, hc.plus.1⟩ (Nat.zero_le _) rfl rfl rfl

end

/-! ### Configurations (R164) -/

theorem byteIn_range {lo hi n : Nat} {b : Byte} (h : byteIn lo hi b = some n) : lo ≤ n ∧ n ≤ hi := by
  unfold byteIn at h
  split at h
  · next hb =>
    cases h
    exact hb
  · cases h

/-- ROUTE DEFINE stages only values that meet the ranges (R164). -/
theorem DefineBytes.config_ok {b : DefineBytes} {allow : Bool} {c : RouteConfig} (h : b.config allow = some c) : c.Ok := by
  unfold DefineBytes.config at h
  split at h
  · next hk hfraction _ hplus _ =>
    split at h
    · next hminus hinit hwindow _ hend =>
      split at h
      · next htags =>
        cases h
        exact ⟨byteIn_range hk, (byteIn_range hfraction).2, byteIn_range hplus, byteIn_range hminus, byteIn_range hinit,
          byteIn_range hwindow, ⟨htags.1, (byteIn_range hend).2⟩, by have := b.timeout.isLt; dsimp only; omega,
          Nat.min_le_right _ _⟩
      · cases h
    · cases h
  · cases h

/-! ### Steps that leave the dispatch states -/

/-- A step that leaves the configuration and the dispatch states and stages nothing new. -/
structure DispatchKept (s t : State) : Prop where
  config : t.status.config = s.status.config
  staged : t.status.staged = s.status.staged ∨ t.status.staged = none
  routes : t.dispatch = s.dispatch

theorem DispatchKept.refl (s : State) : DispatchKept s s := ⟨rfl, Or.inl rfl, rfl⟩

theorem DispatchKept.trans {s t u : State} (h : DispatchKept s t) (k : DispatchKept t u) : DispatchKept s u := by
  refine ⟨k.config.trans h.config, ?_, k.routes.trans h.routes⟩
  rcases k.staged with hk | hk
  · exact h.staged.imp hk.trans hk.trans
  · exact Or.inr hk

theorem DispatchKept.of_eq {s t : State} (hc : t.status.config = s.status.config)
    (hg : t.status.staged = s.status.staged) (hd : t.dispatch = s.dispatch) : DispatchKept s t := ⟨hc, Or.inl hg, hd⟩

/-- The steps of a restore after its start leave them (R172). -/
theorem StartKept.dispatchKept {s t : State} (h : StartKept s t) : DispatchKept s t := .of_eq h.config h.staged h.dispatch

section

variable {s t : State}

/-- The dispatch states rewritten, each in range where its route is defined. -/
theorem State.DispatchOk.rewritten (h : s.DispatchOk) (hc : t.status.config = s.status.config)
    (hg : t.status.staged = s.status.staged ∨ t.status.staged = none)
    (hr : ∀ r c, s.config r = some c → c.Ok → (s.route r).Ok c → (t.route r).Ok c) : t.DispatchOk := by
  have hconfig : ∀ r, t.config r = s.config r := fun r => by rw [State.config, hc]; rfl
  refine ⟨fun r c hr => h.config r c (hconfig r ▸ hr), fun g c hs hm => ?_, fun r c hrc => ?_⟩
  · rcases hg with hg | hg
    · exact h.staged g c (hg ▸ hs) hm
    · rw [hg] at hs
      cases hs
  · rw [hconfig] at hrc
    exact hr r c hrc (h.config r c hrc) (h.routes r c hrc)

theorem State.DispatchOk.kept (h : s.DispatchOk) (k : DispatchKept s t) : t.DispatchOk :=
  h.rewritten k.config k.staged fun r _ _ _ hok => by rwa [State.route, k.routes]

/-- One route's dispatch state written, in range where the route is defined. -/
theorem State.DispatchOk.put (h : s.DispatchOk) {r : RouteNo} {d : RouteDispatch}
    (hd : ∀ c, s.config r = some c → c.Ok → (s.route r).Ok c → d.Ok c) : (s.setRoute r d).DispatchOk := by
  refine h.rewritten rfl (Or.inl rfl) fun q c hc hok hroute => ?_
  by_cases hq : r = q
  · subst hq
    rw [State.route_setRoute]
    exact hd c hc hok hroute
  · rw [State.route_setRoute_ne s d hq]
    exact hroute

/-- With no route defined and nothing staged there is nothing to keep (R173). -/
theorem State.dispatchOk_of_undefined (hc : s.status.config = Vector.replicate 4 none) (hg : s.status.staged = none) :
    s.DispatchOk := by
  have hnone : ∀ r, s.config r = none := fun r => by rw [State.config, hc, Vec.get_replicate]
  exact ⟨fun r c h => by simp [hnone] at h, fun g c h => by simp [hg] at h, fun r c h => by simp [hnone] at h⟩

end

theorem setLink_dispatchKept (s : State) (l : LinkId) (k : Link) : DispatchKept s (s.setLink l k) := .of_eq rfl rfl rfl

theorem answer_dispatchKept (s : State) (l : LinkId) (corr : Byte) (code : Code) (reply : Reply := .bare) :
    DispatchKept s (s.answer l corr code reply) :=
  .of_eq rfl rfl rfl

theorem rewind_dispatchKept (s : State) (r : RouteNo) : DispatchKept s (s.rewind r) := .of_eq rfl rfl rfl

theorem abandoned_staged (u : StatusUnit) : u.abandoned.staged = u.staged ∨ u.abandoned.staged = none := by
  unfold StatusUnit.abandoned
  split
  · exact Or.inr rfl
  · exact Or.inl rfl

theorem abandon_dispatchKept (s : State) : DispatchKept s s.abandon :=
  ⟨abandoned_config _, abandoned_staged _, rfl⟩

/-! ### Closes (R109, R111): no dispatch state is written -/

theorem performClose_dispatchKept (s : State) (r : RouteNo) (why : CloseReason) : DispatchKept s (s.performClose r why) :=
  (performClose_start s r why).dispatchKept

theorem deferClose_dispatchKept (s : State) (r : RouteNo) (why : CloseReason) : DispatchKept s (s.deferClose r why) :=
  .of_eq rfl rfl rfl

theorem setQueue_dispatchKept (s : State) (r : RouteNo) (q : RouteQueue) : DispatchKept s (s.setQueue r q) :=
  .of_eq rfl rfl rfl

theorem requestClose_dispatchKept (s : State) (r : RouteNo) (why : CloseReason) :
    DispatchKept s (s.requestClose r why).1 := by
  rcases requestClose_cases s r why with ⟨p, -, e⟩ | ⟨-, -, e⟩ | ⟨-, -, -, e⟩ | ⟨-, -, -, e⟩ <;> rw [e]
  · exact .refl s
  · exact deferClose_dispatchKept s r why
  · exact setQueue_dispatchKept s r _
  · exact performClose_dispatchKept s r why

theorem settleDeferred_dispatchKept (s : State) (r : RouteNo) : DispatchKept s (s.settleDeferred r) := by
  rcases settleDeferred_cases s r with e | ⟨p, -, -, e⟩ | ⟨p, -, -, -, e⟩ <;> rw [e]
  · exact .refl s
  · exact setQueue_dispatchKept s r _
  · exact performClose_dispatchKept s r _

theorem dueClose_dispatchKept (s : State) (r : RouteNo) (last : Bool) : DispatchKept s (s.dueClose r last) := by
  rcases dueClose_cases s r last with e | ⟨why, -, e⟩ | e | e <;> rw [e]
  · exact .refl s
  · exact performClose_dispatchKept s r why
  · exact setQueue_dispatchKept s r _
  · exact (setQueue_dispatchKept s r _).trans (deferClose_dispatchKept _ r _)

/-! ### Offers, acknowledgements, routes taken DOWN (R118, R121, R130) -/

/-- An offer writes the queues and the terminals, and its own route's dispatch state. -/
theorem offer_dispatchKept {s s' : State} {r : RouteNo} {c : RouteConfig} {corr : Byte} {m : Message}
    (h : s.offer r c corr = some (s', m)) :
    ∃ id e choice, s.choose r c = some (choice, e) ∧ DispatchKept (s.setRoute r ((s.route r).offering c id e)) s' := by
  rcases offer_cases h with ⟨n, rec, e, hc, rfl, -⟩ | ⟨cl, e, hc, rfl, -⟩
  · exact ⟨rec.id, e, _, hc, .of_eq rfl rfl rfl⟩
  · exact ⟨cl.id, e, _, hc, .of_eq rfl rfl rfl⟩

/-- An offer on an UP route with the window open (R119 to R121). -/
theorem offer_dispatchOk {s s' : State} {r : RouteNo} {c : RouteConfig} {corr : Byte} {m : Message} (hs : s.DispatchOk)
    (hc : s.config r = some c) (hup : (s.route r).state = .up) (hw : s.windowOpen r c = true)
    (h : s.offer r c corr = some (s', m)) : s'.DispatchOk := by
  obtain ⟨id, e, choice, hchoose, hkept⟩ := offer_dispatchKept h
  refine State.DispatchOk.kept (hs.put fun c' hc' hok hroute => ?_) hkept
  obtain rfl : c = c' := Option.some.inj (hc.symm.trans hc')
  exact hroute.offering hup (of_decide_eq_true hw) (chooseHead_range hroute.e hok.minus hchoose) id

/-- The route's dispatch state after an offer (R121 steps 2 to 4). -/
theorem offer_route_offering {s s' : State} {r : RouteNo} {c : RouteConfig} {corr : Byte} {m : Message}
    (h : s.offer r c corr = some (s', m)) : ∃ id e, s'.route r = (s.route r).offering c id e := by
  obtain ⟨id, e, -, -, hkept⟩ := offer_dispatchKept h
  refine ⟨id, e, ?_⟩
  rw [State.route, hkept.routes]
  exact State.route_setRoute s r _

/-- An offer leaves the configuration, the route's state and its stream. -/
theorem offer_route {s s' : State} {r : RouteNo} {c : RouteConfig} {corr : Byte} {m : Message}
    (h : s.offer r c corr = some (s', m)) :
    s'.status = s.status ∧ (s'.route r).state = (s.route r).state ∧ (s'.route r).stream = (s.route r).stream := by
  obtain ⟨id, e, hroute⟩ := offer_route_offering h
  obtain ⟨-, hstatus, -⟩ := offer_frame h
  rw [hroute]
  exact ⟨hstatus, rfl, rfl⟩

theorem takeDown_dispatchOk {s : State} (hs : s.DispatchOk) (r : RouteNo) (why : DownReason) (cause : EndCause) :
    (s.takeDown r why cause).DispatchOk := by
  have hput : (s.setRoute r ((s.route r).takenDown why)).DispatchOk := hs.put fun _ _ _ h => h.takenDown why
  cases hst : (s.route r).stream with
  | none =>
    rw [takeDown_closed why cause hst]
    exact hput.kept (.of_eq rfl rfl rfl)
  | some st =>
    rw [takeDown_open why cause hst]
    exact hput.kept (.of_eq rfl rfl rfl)

theorem ackAtQueues_dispatchKept (s : State) (r : RouteNo) (id : Identity) : DispatchKept s (s.ackAtQueues r id) := by
  rcases ackAtQueues_cases s r id with e | ⟨n, rec, -, -, -, e⟩ | ⟨cl, -, -, e⟩ <;> rw [e]
  · exact .refl s
  · exact .of_eq rfl rfl rfl
  · exact (setQueue_dispatchKept s r _).trans (settleDeferred_dispatchKept _ r)

/-- The acknowledgement with the configuration in force takes the entry from the list (R130). -/
theorem acknowledge_dispatchOk {s : State} (hs : s.DispatchOk) {r : RouteNo} {c : RouteConfig} (hc : s.config r = some c)
    (id : Identity) : (s.acknowledge r c id).DispatchOk := by
  refine State.DispatchOk.kept (hs.put fun c' hc' _ hroute => ?_) (ackAtQueues_dispatchKept _ r id)
  obtain rfl : c = c' := Option.some.inj (hc.symm.trans hc')
  exact hroute.unlisting id

theorem acknowledge_config (s : State) (r : RouteNo) (c : RouteConfig) (id : Identity) (q : RouteNo) :
    (s.acknowledge r c id).config q = s.config q := by
  rw [State.config, State.acknowledge, (ackAtQueues_dispatchKept _ r id).config]
  rfl

/-! ### The transmitters (R125, R126) -/

/-- The state a ready stream is served in: its route UP, its window open, a record to choose (R125). -/
theorem streamReady_cases {s : State} {l : LinkId} {r : RouteNo} (h : s.streamReady l r = true) :
    ∃ c st, s.config r = some c ∧ (s.route r).stream = some st ∧ st.link = l ∧ s.status.part = .running ∧
      (s.route r).state = .up ∧ s.windowOpen r c = true ∧ (s.choose r c).isSome = true := by
  unfold State.streamReady at h
  split at h
  · next c st hc hst =>
    simp only [Bool.and_eq_true, beq_iff_eq] at h
    obtain ⟨⟨⟨⟨hl, hp⟩, hup⟩, hw⟩, hch⟩ := h
    exact ⟨c, st, hc, hst, hl, hp, hup, hw, hch⟩
  · cases h

theorem serveStream_dispatchOk {s : State} (hs : s.DispatchOk) {l : LinkId} {r : RouteNo} (h : s.streamReady l r = true) :
    (s.serveStream l r).DispatchOk := by
  obtain ⟨c, st, hc, hst, -, -, hup, hw, -⟩ := streamReady_cases h
  unfold State.serveStream
  simp only [hc, hst]
  split
  · next s' m ho =>
    obtain ⟨hstatus, hstate, hstream⟩ := offer_route ho
    have hoffered := offer_dispatchOk hs hc hup hw ho
    have hcounted : (s'.setRoute r { s'.route r with stream := st.counted }).DispatchOk :=
      hoffered.put fun _ _ _ hroute => hroute.counted (hstream.trans hst) (hstate.trans hup)
    unfold State.endByCount
    split <;> exact hcounted.kept (.of_eq rfl rfl rfl)
  · exact hs

theorem nextMessage_dispatchOk {s : State} (hs : s.DispatchOk) (l : LinkId) : (s.nextMessage l).DispatchOk := by
  unfold State.nextMessage
  split
  · exact hs.kept (setLink_dispatchKept s l _)
  · split
    · next r hr => exact serveStream_dispatchOk hs (List.find?_some (p := fun r => s.streamReady l r) hr)
    · exact hs

/-! ### GRANT and COMPLETION (R85, R88, R92) -/

theorem withdraw_dispatchKept (s : State) (q : Request) (h : HistoryEntry) : DispatchKept s (s.withdraw q h) := by
  have hvoided : DispatchKept s (s.voidRecord (s.term q.terminal).route q.till h) := by
    unfold State.voidRecord
    split
    · split <;> exact .of_eq rfl rfl rfl
    · exact .refl s
  unfold State.withdraw
  dsimp only
  generalize s.voidRecord (s.term q.terminal).route q.till h = v at hvoided ⊢
  exact hvoided.trans (.of_eq rfl rfl rfl)

theorem settleGrant_dispatchKept (s : State) (q : Request) (v : Verdict) : DispatchKept s (s.settleGrant q v) := by
  cases v with
  | refused code => exact answer_dispatchKept s _ _ _ _
  | duplicate h => exact answer_dispatchKept s _ _ _ _
  | wrap p => exact .of_eq rfl rfl rfl
  | withdraw h => exact withdraw_dispatchKept s q h

theorem execGrant_dispatchKept (s : State) : ∃ t, execGrant s = .next t ∧ DispatchKept s t := by
  refine ⟨_, rfl, ?_⟩
  split
  · split
    · exact .refl s
    · next i _ =>
      split
      · exact .refl s
      · have htaken : DispatchKept s { s with intake := s.intake.granted i } := .of_eq rfl rfl rfl
        exact htaken.trans (settleGrant_dispatchKept _ _ _)
  · exact .refl s

theorem execCompletion_dispatchKept (s : State) : ∃ t, execCompletion s = .next t ∧ DispatchKept s t := by
  refine ⟨_, rfl, ?_⟩
  split
  · split
    · next k w _ =>
      have hwrapped : DispatchKept s (s.completeWrap k w) := by
        refine .of_eq ?_ ?_ (completeWrap_dispatch s k w)
        · apply completeWrap_keeps (·.status.config) <;> intros <;> rfl
        · apply completeWrap_keeps (·.status.staged) <;> intros <;> rfl
      exact hwrapped.trans (dueClose_dispatchKept _ _ _)
    · exact .refl s
  · exact .refl s

/-! ### Acts that leave the configuration and the dispatch states as they are

Each branch of such an act is a refusal, or an update of other blocks. -/

section

variable (l : LinkId) (corr b : Byte) (t : TerminalNo) (s : State)

theorem wrapRequestAct_dispatchKept (kind : WrapKind) (i : LaneNo) (p : List Byte) :
    DispatchKept s (wrapRequestAct kind i corr p s) := by
  unfold wrapRequestAct
  repeat' split
  all_goals exact .of_eq rfl rfl rfl

theorem laneHoldAct_dispatchKept (held : Bool) : DispatchKept s (laneHoldAct held l corr b s) := by
  unfold laneHoldAct
  repeat' split
  all_goals exact .of_eq rfl rfl rfl

theorem enrolAct_dispatchKept (a : Place × Nat) : DispatchKept s (enrolAct l corr t a s) := by
  unfold enrolAct
  repeat' split
  all_goals exact .of_eq rfl rfl rfl

theorem onEnrolled_dispatchKept {act : State → State} (hact : DispatchKept s (act s)) :
    DispatchKept s (onEnrolled l corr t act s) :=
  onEnrolled_keeps (DispatchKept s) (fun code => answer_dispatchKept s l corr code) hact

theorem releaseTerminalAct_dispatchKept : DispatchKept s (releaseTerminalAct l corr t s) := by
  refine onEnrolled_dispatchKept l corr t s ?_
  unfold releaseTerminalEnrolled
  split <;> exact .of_eq rfl rfl rfl

theorem moveAct_dispatchKept (p : Place) : DispatchKept s (moveAct l corr t p s) := by
  refine onEnrolled_dispatchKept l corr t s ?_
  unfold moveEnrolled
  repeat' split
  all_goals exact .of_eq rfl rfl rfl

theorem terminalQueryAct_dispatchKept : DispatchKept s (terminalQueryAct l corr b s) := by
  unfold terminalQueryAct
  split <;> exact answer_dispatchKept s _ _ _ _

theorem keyLoadAct_dispatchKept (a : LoadBytes) : DispatchKept s (keyLoadAct l corr a s) := by
  unfold keyLoadAct keyLoadFamily
  repeat' split
  all_goals exact .of_eq rfl rfl rfl

theorem rollFamilyAct_dispatchKept : DispatchKept s (rollFamilyAct l corr b s) := by
  unfold rollFamilyAct rollFamilyOn
  dsimp only
  repeat' split
  all_goals exact .of_eq rfl rfl rfl

theorem retireFamilyAct_dispatchKept : DispatchKept s (retireFamilyAct l corr b s) := by
  unfold retireFamilyAct retireFamilyOn
  dsimp only
  repeat' split
  all_goals exact .of_eq rfl rfl rfl

theorem familyQueryAct_dispatchKept : DispatchKept s (familyQueryAct l corr b s) := by
  unfold familyQueryAct
  split <;> exact answer_dispatchKept s _ _ _ _

theorem setCeilingAct_dispatchKept (digits : List Byte) : DispatchKept s (setCeilingAct l corr b digits s) := by
  unfold setCeilingAct
  repeat' split
  all_goals exact .of_eq rfl rfl rfl

theorem routeQueryAct_dispatchKept : DispatchKept s (routeQueryAct l corr b s) := by
  unfold routeQueryAct
  repeat' split
  all_goals exact answer_dispatchKept s _ _ _ _

theorem setClockAct_dispatchKept (time : ClockTime) : DispatchKept s (setClockAct l corr time s) := by
  unfold setClockAct
  repeat' split
  all_goals exact .of_eq rfl rfl rfl

theorem setCutoverAct_dispatchKept (a : Byte × Byte × Byte) : DispatchKept s (setCutoverAct l corr a s) := by
  unfold setCutoverAct
  repeat' split
  all_goals exact .of_eq rfl rfl rfl

theorem faultReadAct_dispatchKept : DispatchKept s (faultReadAct l corr s) := by
  unfold faultReadAct
  dsimp only
  split <;> exact .of_eq rfl rfl rfl

theorem closeBatchAct_dispatchKept : DispatchKept s (closeBatchAct l corr b s) := by
  unfold closeBatchAct
  split
  · split
    · exact answer_dispatchKept s _ _ _
    · split
      · split
        · exact (requestClose_dispatchKept s _ .manual).trans (answer_dispatchKept _ _ _ _ _)
        · exact answer_dispatchKept s _ _ _
      · exact answer_dispatchKept s _ _ _
  · exact answer_dispatchKept s _ _ _

end

/-! ### Acts on the routes (R117 to R130) -/

section

variable {s : State} (hs : s.DispatchOk) (l : LinkId) (corr : Byte) {r : RouteNo} {c : RouteConfig}
include hs

theorem State.DispatchOk.answer (code : Code) (reply : Reply := .bare) : (s.answer l corr code reply).DispatchOk :=
  hs.kept (answer_dispatchKept s l corr code reply)

theorem routeUpAct_dispatchOk (hc : s.config r = some c) : (routeUpAct l corr r c s).DispatchOk := by
  unfold routeUpAct
  dsimp only
  split
  · exact hs.answer l corr .done
  · refine State.DispatchOk.answer (hs.put fun c' hc' hok hroute => ?_) l corr .done
    obtain rfl : c = c' := Option.some.inj (hc.symm.trans hc')
    exact hroute.broughtUp hok

theorem routeDownAct_dispatchOk : (routeDownAct l corr r c s).DispatchOk := by
  unfold routeDownAct
  dsimp only
  split
  · exact (takeDown_dispatchOk hs r .command .routeDown).answer l corr .done
  · next hd => exact State.DispatchOk.answer (hs.put fun _ _ _ hroute => hroute.withReason hd .command) l corr .done

theorem pullOneAct_dispatchOk (hc : s.config r = some c) : (pullOneAct l corr r c s).DispatchOk := by
  unfold pullOneAct
  split
  · next hup =>
    split
    · next hw =>
      split
      · exact hs.answer l corr .empty
      · next ho => exact (offer_dispatchOk hs hc hup hw ho).kept (setLink_dispatchKept _ l _)
    · exact hs.answer l corr .windowFull
  · exact hs.answer l corr .routeDown

/-- The offers of a PULL BLOCK are made on the UP route with its configuration unchanged (R123). -/
theorem offerRun_dispatchOk (hc : s.config r = some c) (hup : (s.route r).state = .up) (n : Nat) :
    (State.offerRun r c corr n s).state.DispatchOk := by
  have hrun := offerRun_keeps (fun b => b.DispatchOk ∧ b.config r = some c ∧ (b.route r).state = .up)
    (fun b b' m hb hw ho => by
      obtain ⟨hok, hbc, hbup⟩ := hb
      obtain ⟨hstatus, hstate, -⟩ := offer_route ho
      exact ⟨offer_dispatchOk hok hbc hbup hw ho, by rwa [State.config, hstatus], hstate.trans hbup⟩) (corr := corr) n s
    ⟨hs, hc, hup⟩
  exact hrun.1

theorem pullBlockAct_dispatchOk (hc : s.config r = some c) (n : Byte) : (pullBlockAct l corr n r c s).DispatchOk := by
  unfold pullBlockAct
  split
  · next hup => exact (offerRun_dispatchOk hs corr hc hup _).kept (setLink_dispatchKept _ l _)
  · exact hs.answer l corr .routeDown

/-- A stream is opened on an UP route, with counts from 1 to 255 (R124). -/
theorem streamOpenAct_dispatchOk (n renew : Byte) : (streamOpenAct l corr n renew r c s).DispatchOk := by
  unfold streamOpenAct
  split
  · exact hs.answer l corr .badParameter
  · split
    · next hup =>
      refine State.DispatchOk.answer (hs.put fun _ _ _ hroute => hroute.withStream (Or.inl hup) ?_) l corr .done
      rintro st ⟨⟩
      have hn := n.isLt
      exact ⟨Nat.le_max_right _ _, Nat.le_refl _, Nat.max_le.mpr ⟨by omega, by decide⟩⟩
    · exact hs.answer l corr .routeDown

theorem streamCloseAct_dispatchOk : (streamCloseAct l corr r c s).DispatchOk :=
  State.DispatchOk.answer (hs.put fun _ _ _ hroute => hroute.withoutStream) l corr .done

theorem ackOneAct_dispatchOk (hc : s.config r = some c) (batch sq : Nat) : (ackOneAct l corr batch sq r c s).DispatchOk := by
  unfold ackOneAct
  split
  · exact (acknowledge_dispatchOk hs hc _).answer l corr .done _
  · exact hs.answer l corr .notOffered

theorem ackOldestAct_dispatchOk (hc : s.config r = some c) : (ackOldestAct l corr r c s).DispatchOk := by
  unfold ackOldestAct
  split
  · exact hs.answer l corr .notOffered
  · exact (acknowledge_dispatchOk hs hc _).answer l corr .done _

theorem ackThroughAct_dispatchOk (hc : s.config r = some c) (batch sq : Nat) :
    (ackThroughAct l corr batch sq r c s).DispatchOk := by
  have hacked := acknowledgeAll_keeps (fun b => b.DispatchOk ∧ b.config r = some c)
    (fun b id hb => ⟨acknowledge_dispatchOk hb.1 hb.2 id, (acknowledge_config b r c id r).trans hb.2⟩)
    (s.covered r batch sq) s ⟨hs, hc⟩
  exact hacked.1.answer l corr .done _

end

/-! ### Setup and ERASE (R163 to R166, R173) -/

section

variable {s : State} (hs : s.DispatchOk) (l : LinkId) (corr : Byte)
include hs

theorem State.DispatchOk.abandoned (code : Code) : (s.abandon.answer l corr code).DispatchOk :=
  (hs.kept (abandon_dispatchKept s)).answer l corr code

/-- A sequence opens with nothing defined yet (R163). -/
theorem openSetup_dispatchOk (n : Nat) (flags : Byte) : (s.openSetup n flags).DispatchOk := by
  refine ⟨hs.config, fun g c hg hm => ?_, hs.routes⟩
  cases hg
  cases hm

theorem setupBeginAct_dispatchOk (a : Byte × Byte) : (setupBeginAct l corr a s).DispatchOk := by
  unfold setupBeginAct
  split
  · exact hs.abandoned l corr _
  · split
    · exact hs.answer l corr _
    · split
      · exact hs.answer l corr _
      · exact (openSetup_dispatchOk hs _ _).answer l corr _

/-- A configuration in range joins the staged ones (R164). -/
theorem stage_dispatchOk {g : Staged} (hg : s.status.staged = some g) {c : RouteConfig} (hc : c.Ok) :
    State.DispatchOk { s with status := { s.status with staged := some (g.add c) } } := by
  refine ⟨hs.config, fun g' c' hg' hm => ?_, hs.routes⟩
  cases hg'
  rcases List.mem_append.mp hm with hm | hm
  · exact hs.staged g c' hg hm
  · rw [List.mem_singleton.mp hm]
    exact hc

/-- A ROUTE DEFINE that passes stages a configuration in range (R164). -/
theorem routeDefineAct_dispatchOk (a : DefineBytes) : (routeDefineAct l corr a s).DispatchOk := by
  unfold routeDefineAct routeDefineStaged
  split
  · split
    · next g hg =>
      split
      · split
        · exact hs.abandoned l corr _
        · next hc => exact (stage_dispatchOk hs hg (DefineBytes.config_ok hc)).answer l corr _ _
      · exact hs.abandoned l corr _
    · exact hs.abandoned l corr _
  · exact hs.answer l corr _

/-- The configuration brought into force is the staged one, with every route at its start (R165). -/
theorem install_dispatchOk {g : Staged} (hg : s.status.staged = some g) : (s.install g).DispatchOk := by
  have hconfig : ∀ r c, (s.install g).config r = some c → c.Ok := fun r c hc => by
    have hstaged : g.routes[r.val]? = some c := by simpa [State.config, State.install, StatusUnit.inForce, Staged.config] using hc
    exact hs.staged g c hg (List.mem_of_getElem? hstaged)
  refine ⟨hconfig, nofun, fun r c hc => ?_⟩
  have hroute : (s.install g).route r = dispatchAtSetup ((s.install g).config r) := Vec.get_gen _ r
  rw [hroute, hc]
  exact dispatchAtSetup_ok (hconfig r c hc)

theorem setupEndAct_dispatchOk : (setupEndAct l corr s).DispatchOk := by
  unfold setupEndAct
  split
  · split
    · next g hg =>
      split
      · split
        · exact (install_dispatchOk hs hg).answer l corr _
        · exact hs.abandoned l corr _
      · exact hs.abandoned l corr _
    · exact hs.abandoned l corr _
  · exact hs.answer l corr _

end

/-- Nothing is defined after an ERASE (R173). -/
theorem eraseAct_dispatchOk (l : LinkId) (corr : Byte) (s : State) : (eraseAct l corr s).DispatchOk :=
  State.dispatchOk_of_undefined rfl rfl

/-! ### Events of the links and the transmitters (R125, R126, R132, R136, R160) -/

theorem frameArrives_dispatchKept (l : LinkId) (body : List Byte) (s : State) :
    (∃ t, frameArrives l body s = .gone t ∧ DispatchKept s t) ∨
      (∃ t, frameArrives l body s = .taken t ∧ DispatchKept s t) :=
  frameArrives_keeps (DispatchKept s) (.refl s) (fun b k hb => hb.trans (setLink_dispatchKept b l k)) body

section

variable {s : State} (hs : s.DispatchOk)
include hs

/-- The reset of a partner link closes its streams; that of the service port abandons a setup sequence too (R136, R160). -/
theorem resetLink_dispatchOk (l : LinkId) (rx : Receiver) : (s.resetLink l rx).DispatchOk := by
  have hclosed : ∀ (m : LinkId) {r c}, (s.route r).Ok c → (Vec.get (closeStreams s.dispatch m) r).Ok c := by
    intro m r c h
    rw [closeStreams, Vec.get_gen]
    exact h.closedOn m
  cases l with
  | lane i => exact hs.kept (.of_eq rfl rfl rfl)
  | dispatch => exact hs.rewritten rfl (Or.inl rfl) fun _ _ _ _ h => hclosed .dispatch h
  | service => exact hs.rewritten (abandoned_config _) (abandoned_staged _) fun _ _ _ _ h => hclosed .service h

theorem execLinkReset_dispatchOk (l : LinkId) (corr : Byte) (p : List Byte) :
    ∃ t, execLinkReset l corr p s = .next t ∧ t.DispatchOk := by
  refine ⟨_, rfl, ?_⟩
  split
  · split
    · rcases frameArrives_dispatchKept l (0x0F#8 :: corr :: p) s with ⟨t, he, hk⟩ | ⟨t, he, hk⟩ <;> rw [he] <;>
        exact hs.kept hk
    · exact (resetLink_dispatchOk hs l .hunting).answer l corr .done
  · exact hs

theorem execLineBreak_dispatchOk (l : LinkId) : ∃ t, execLineBreak l s = .next t ∧ t.DispatchOk := by
  refine ⟨_, rfl, ?_⟩
  have hlow := hs.kept (setLink_dispatchKept s l { s.link l with low := true })
  dsimp only
  split
  · exact resetLink_dispatchOk hlow l .inBreak
  · exact hlow

theorem execStreamOffer_dispatchOk (l : LinkId) : ∃ t, execStreamOffer l s = .next t ∧ t.DispatchOk := by
  refine ⟨_, rfl, ?_⟩
  split
  · exact nextMessage_dispatchOk hs l
  · exact hs

theorem execTransmitComplete_dispatchOk (l : LinkId) : ∃ t, execTransmitComplete l s = .next t ∧ t.DispatchOk := by
  refine ⟨_, rfl, ?_⟩
  split
  · exact nextMessage_dispatchOk (hs.kept (setLink_dispatchKept s l _)) l
  · exact hs

theorem execAckTimerExpiry_dispatchOk (r : RouteNo) : ∃ t, execAckTimerExpiry r s = .next t ∧ t.DispatchOk := by
  refine ⟨_, rfl, ?_⟩
  split
  · exact (takeDown_dispatchOk hs r .timeout .timeout).kept (.of_eq rfl rfl rfl)
  · exact hs

theorem execTick_dispatchOk : ∃ t, execTick s = .next t ∧ t.DispatchOk := by
  refine ⟨_, rfl, ?_⟩
  dsimp only
  split
  · refine hs.rewritten rfl (Or.inl rfl) fun r c _ _ hroute => ?_
    have hticked : State.route { s with cutover := s.tickDue (nextSecond s.cutover.clock), dispatch := tickTimers s.dispatch } r =
        { s.route r with timer := (s.route r).timer.tick } := Vec.get_gen _ r
    rw [hticked]
    exact hroute.tick
  · exact hs.kept (.of_eq rfl rfl rfl)

end

section

variable (s : State)

theorem execFrameBad_dispatchKept (l : LinkId) (chars : List LineChar) :
    ∃ t, execFrameBad l chars s = .next t ∧ DispatchKept s t := by
  refine ⟨_, rfl, ?_⟩
  repeat' split
  all_goals exact .of_eq rfl rfl rfl

theorem execUnknownKind_dispatchKept (l : LinkId) (corr kind : Byte) (p : List Byte) :
    ∃ t, execUnknownKind l corr kind p s = .next t ∧ DispatchKept s t := by
  refine ⟨_, rfl, ?_⟩
  split
  · exact .refl s
  · rcases frameArrives_dispatchKept l (kind :: corr :: p) s with ⟨t, he, hk⟩ | ⟨t, he, hk⟩ <;> rw [he]
    · exact hk
    · exact hk.trans (answer_dispatchKept _ _ _ _)

/-! ### Events of the keys and the clock -/

theorem execLoadCompletion_dispatchKept (f : FamilyNo) : ∃ t, execLoadCompletion f s = .next t ∧ DispatchKept s t := by
  refine ⟨_, rfl, ?_⟩
  split
  · split
    · unfold State.finishLoad
      dsimp only
      split <;> exact .of_eq rfl rfl rfl
    · exact .refl s
  · exact .refl s

theorem execRollCompletion_dispatchKept (f : FamilyNo) : ∃ t, execRollCompletion f s = .next t ∧ DispatchKept s t := by
  refine ⟨_, rfl, ?_⟩
  split
  · split <;> exact .of_eq rfl rfl rfl
  · exact .refl s

theorem execNearWarning_dispatchKept : ∃ t, execNearWarning s = .next t ∧ DispatchKept s t := by
  refine ⟨_, rfl, ?_⟩
  split <;> exact .of_eq rfl rfl rfl

theorem execCutoverMatch_dispatchKept : ∃ t, execCutoverMatch s = .next t ∧ DispatchKept s t := by
  refine ⟨_, rfl, ?_⟩
  repeat' split
  all_goals exact .of_eq rfl rfl rfl

theorem execCutoverClosingStart_dispatchKept : ∃ t, execCutoverClosingStart s = .next t ∧ DispatchKept s t := by
  refine ⟨_, rfl, ?_⟩
  split <;> exact .of_eq rfl rfl rfl

theorem execCutoverRouteClose_dispatchKept : ∃ t, execCutoverRouteClose s = .next t ∧ DispatchKept s t := by
  refine ⟨_, rfl, ?_⟩
  split
  · split
    · next r _ => exact (askClose_start s r).dispatchKept.trans (.of_eq rfl rfl rfl)
    · exact .of_eq rfl rfl rfl
  · exact .refl s

theorem execCutoverFamilyRoll_dispatchKept : ∃ t, execCutoverFamilyRoll s = .next t ∧ DispatchKept s t := by
  refine ⟨_, rfl, ?_⟩
  split
  · split
    · split
      · exact .refl s
      · unfold State.rollTurn
        dsimp only
        repeat' split
        all_goals exact .of_eq rfl rfl rfl
    · exact .refl s
  · exact .refl s

theorem execDeferredClose_dispatchKept (r : RouteNo) : ∃ t, execDeferredClose r s = .next t ∧ DispatchKept s t := by
  refine ⟨_, rfl, ?_⟩
  split
  · exact settleDeferred_dispatchKept s r
  · exact .refl s

theorem execResetLine_dispatchKept : ∃ t, execResetLine s = .next t ∧ DispatchKept s t := by
  refine ⟨_, rfl, ?_⟩
  split <;> exact .of_eq rfl rfl rfl

end

/-! ### Supply and retention (R135, R171 to R173) -/

/-- The last stages of a warm restore write the dispatch states once, from the configuration in force (R135, R172). -/
theorem warmRestore_tail (s : State) (straps : BitVec 6) :
    (s.warmRestore straps).dispatch = Vec.gen (fun r => dispatchAtRestore ((restoreSettled s straps).config r)) ∧
    (s.warmRestore straps).status.config = (restoreSettled s straps).status.config ∧
    (s.warmRestore straps).status.staged = (restoreSettled s straps).status.staged := by
  obtain ⟨hdispatch, -, -, -, -, -, -, hstatus⟩ := restoreTail_start (restoreSettled s straps).undoAll
  have hresumed : StartKept (restoreSettled s straps).undoAll.restoreDispatch.releaseAll (s.warmRestore straps) :=
    resume_start _
  have hundone := undoAll_start (restoreSettled s straps)
  refine ⟨?_, ?_, ?_⟩
  · rw [hresumed.dispatch, hdispatch]
    simp only [State.config, hundone.config]
  · rw [hresumed.config, hstatus, hundone.config]
  · rw [hresumed.staged, hstatus, hundone.staged]

/-- After a warm restore the dispatch state of a route is the start value of its configuration (R135). -/
theorem warmRestore_route (s : State) (straps : BitVec 6) (r : RouteNo) :
    (s.warmRestore straps).route r = dispatchAtRestore ((s.warmRestore straps).config r) := by
  obtain ⟨hdispatch, hconfig, -⟩ := warmRestore_tail s straps
  rw [State.route, hdispatch, Vec.get_gen, State.config, State.config, hconfig]

theorem settleAll_start (s : State) : StartKept s s.settleAll :=
  foldl_keeps (StartKept s) _ (fun u r hu => hu.trans (settleWaiting_start u r)) _ _ (StartKept.refl s)

theorem warmRestore_staged (s : State) (straps : BitVec 6) : (s.warmRestore straps).status.staged = none := by
  obtain ⟨-, -, hstaged⟩ := warmRestore_tail s straps
  obtain ⟨-, -, -, hrewound, -⟩ := rewindEach_kept (List.finRange 4) (restoreStart s straps)
  obtain ⟨-, -, hlapsed, -⟩ := lapse_abandoned s.status
  have hstart : (restoreStart s straps).status = s.status.lapse.abandoned.raise .restored := rfl
  rw [hstaged, restoreSettled, (settleAll_start _).staged, hrewound, hstart, hlapsed]

section

variable {s : State} (hs : s.DispatchOk)
include hs

/-- Loss of supply leaves every route DOWN with nothing offered and stages nothing (R162, R171). -/
theorem lapse_dispatchOk : s.lapse.DispatchOk := by
  have hconfig : s.lapse.status.config = s.status.config := rfl
  have hstaged : s.lapse.status.staged = none := rfl
  refine hs.rewritten hconfig (Or.inr hstaged) fun r c _ hok _ => ?_
  have habsent : s.lapse.route r = RouteDispatch.absent := Vec.get_replicate _ r
  rw [habsent]
  exact RouteDispatch.absent_ok hok

theorem execPowerLoss_dispatchOk : ∃ t, execPowerLoss s = .next t ∧ t.DispatchOk := by
  refine ⟨_, rfl, ?_⟩
  split
  · exact hs
  · exact (lapse_dispatchOk hs).kept (.of_eq rfl rfl rfl)

/-- A warm restore puts every defined route DOWN with e at drain init, and stages nothing: loss of supply and the abandonment
have emptied the sequence (R135, R166, R172). -/
theorem warmRestore_dispatchOk (straps : BitVec 6) : (s.warmRestore straps).DispatchOk := by
  have hconfig := (warmRestore_slotsKept s straps).config
  refine hs.rewritten hconfig (Or.inr (warmRestore_staged s straps)) fun r c hc hok _ => ?_
  have hroute : (s.warmRestore straps).route r = dispatchAtRestore (some c) := by
    rw [warmRestore_route, State.config, hconfig]
    exact congrArg dispatchAtRestore hc
  rw [hroute]
  exact dispatchAtRestore_ok hok

theorem execWarmRestore_dispatchOk (straps : BitVec 6) : ∃ t, execWarmRestore straps s = .next t ∧ t.DispatchOk := by
  refine ⟨_, rfl, ?_⟩
  split
  · exact warmRestore_dispatchOk hs straps
  · exact hs

theorem execStoreLost_dispatchOk (straps : BitVec 6) : ∃ t, execStoreLost straps s = .next t ∧ t.DispatchOk := by
  refine ⟨_, rfl, ?_⟩
  split
  · exact State.dispatchOk_of_undefined rfl rfl
  · exact hs

end

/-! ### Every step -/

section

variable {l : LinkId} {corr b : Byte} {p : List Byte} {s : State} (hs : s.DispatchOk)
include hs

/-- What the part does with a request before its own act keeps the invariant; so the request does where its act does. -/
theorem request_dispatchOk {α : Type} {kind : Byte} {ring : Nat} {parse : List Byte → Option α}
    {spoil : State → State} {act : α → State → State} (hspoil : ∀ u, DispatchKept u (spoil u))
    (hact : ∀ a u, u.DispatchOk → (act a u).DispatchOk) : (request kind ring parse spoil l corr p act s).DispatchOk :=
  request_keeps State.DispatchOk hs (fun h => h.kept (setLink_dispatchKept _ l _))
    (fun h => h.kept (setLink_dispatchKept _ l _)) (fun u h _ => h.kept (setLink_dispatchKept u l _))
    (fun _ code h _ => h.answer l corr code) (fun u h _ => (h.kept (hspoil u)).answer l corr _)
    (fun a u _ _ h _ _ _ => hact a u h)

/-- A request whose act leaves the dispatch states. -/
theorem plainRequest_dispatchOk {α : Type} {kind : Byte} {ring : Nat} {parse : List Byte → Option α}
    {act : α → State → State} (hact : ∀ a u, DispatchKept u (act a u)) :
    (request kind ring parse id l corr p act s).DispatchOk :=
  request_dispatchOk hs DispatchKept.refl fun a u hu => hu.kept (hact a u)

theorem laneRequest_dispatchOk {kind : Byte} {act : LaneNo → State → State} (hact : ∀ i u, DispatchKept u (act i u)) :
    (laneRequest kind l corr p act s).DispatchOk :=
  laneRequest_keeps State.DispatchOk hs (fun h => h.kept (setLink_dispatchKept _ l _))
    (fun h => h.kept (setLink_dispatchKept _ l _)) (fun u h _ => h.kept (setLink_dispatchKept u l _))
    (fun _ code h _ => h.answer l corr code) (fun i u _ h _ _ _ => h.kept (hact i u))

/-- A route command acts with the configuration of its route in force (R116). -/
theorem onRoute_dispatchOk {act : RouteNo → RouteConfig → State → State}
    (hact : ∀ r c, s.config r = some c → (act r c s).DispatchOk) : (onRoute l corr b act s).DispatchOk :=
  onRoute_keeps State.DispatchOk (fun code => hs.answer l corr code) fun r c _ hc => hact r c hc

theorem routeRequest_dispatchOk {α : Type} {kind : Byte} {parse : List Byte → Option α} {route : α → Byte}
    {act : α → RouteNo → RouteConfig → State → State}
    (hact : ∀ a r c u, u.DispatchOk → u.config r = some c → (act a r c u).DispatchOk) :
    (request kind 1 parse id l corr p (fun a => onRoute l corr (route a) (act a)) s).DispatchOk :=
  request_dispatchOk hs DispatchKept.refl fun a u hu => onRoute_dispatchOk hu fun r c hc => hact a r c u hu hc

theorem terminalRequest_dispatchOk {α β : Type} {kind : Byte} {parse : List Byte → Option α} {terminal : α → Byte}
    {fields : α → Option β} {act : TerminalNo → β → State → State} (hact : ∀ t a u, DispatchKept u (act t a u)) :
    (request kind 1 parse id l corr p (fun a => onTerminal l corr (terminal a) (fields a) act) s).DispatchOk :=
  plainRequest_dispatchOk hs fun _ u =>
    onTerminal_keeps (DispatchKept u) (fun code => answer_dispatchKept u l corr code) fun t a _ => hact t a u

/-- An event that leaves the dispatch states keeps the invariant. -/
theorem dispatchOk_of_kept {o : Host.Outcome State Fault Refusal} (h : ∃ t, o = .next t ∧ DispatchKept s t) :
    ∃ t, o = .next t ∧ t.DispatchOk := by
  obtain ⟨t, he, hk⟩ := h
  exact ⟨t, he, hs.kept hk⟩

end

/-- Every command answers next and keeps the dispatch states in range. -/
theorem exec_dispatchOk (c : Instr) {s : State} (hs : s.DispatchOk) : ∃ t, exec c s = .next t ∧ t.DispatchOk := by
  cases c with
  | auth l corr p => exact ⟨_, rfl, laneRequest_dispatchOk hs fun i u => wrapRequestAct_dispatchKept corr u .auth i p⟩
  | refund l corr p => exact ⟨_, rfl, laneRequest_dispatchOk hs fun i u => wrapRequestAct_dispatchKept corr u .refund i p⟩
  | reversal l corr p =>
    exact ⟨_, rfl, laneRequest_dispatchOk hs fun i u => wrapRequestAct_dispatchKept corr u .reversal i p⟩
  | laneStatus l corr p => exact ⟨_, rfl, laneRequest_dispatchOk hs fun _ u => answer_dispatchKept u _ _ _ _⟩
  | linkReset l corr p => exact execLinkReset_dispatchOk hs l corr p
  | frameBad l chars => exact dispatchOk_of_kept hs (execFrameBad_dispatchKept s l chars)
  | lineBreak l => exact execLineBreak_dispatchOk hs l
  | lineBreakEnd l => exact ⟨_, rfl, hs.kept (setLink_dispatchKept s l _)⟩
  | grant => exact dispatchOk_of_kept hs (execGrant_dispatchKept s)
  | completion => exact dispatchOk_of_kept hs (execCompletion_dispatchKept s)
  | enrol l corr p => exact ⟨_, rfl, terminalRequest_dispatchOk hs fun t a u => enrolAct_dispatchKept l corr t u a⟩
  | holdTerminal l corr p =>
    exact ⟨_, rfl, terminalRequest_dispatchOk hs fun t _ u => onEnrolled_dispatchKept l corr t u (.of_eq rfl rfl rfl)⟩
  | releaseTerminal l corr p =>
    exact ⟨_, rfl, terminalRequest_dispatchOk hs fun t _ u => releaseTerminalAct_dispatchKept l corr t u⟩
  | move l corr p => exact ⟨_, rfl, terminalRequest_dispatchOk hs fun t a u => moveAct_dispatchKept l corr t u a⟩
  | retire l corr p =>
    exact ⟨_, rfl, terminalRequest_dispatchOk hs fun t _ u => onEnrolled_dispatchKept l corr t u (.of_eq rfl rfl rfl)⟩
  | setFloor l corr p =>
    exact ⟨_, rfl, terminalRequest_dispatchOk hs fun t _ u => onEnrolled_dispatchKept l corr t u (.of_eq rfl rfl rfl)⟩
  | terminalQuery l corr p => exact ⟨_, rfl, plainRequest_dispatchOk hs (terminalQueryAct_dispatchKept l corr)⟩
  | keyLoad l corr p => exact ⟨_, rfl, plainRequest_dispatchOk hs fun a u => keyLoadAct_dispatchKept l corr u a⟩
  | loadCompletion f => exact dispatchOk_of_kept hs (execLoadCompletion_dispatchKept s f)
  | rollFamily l corr p => exact ⟨_, rfl, plainRequest_dispatchOk hs (rollFamilyAct_dispatchKept l corr)⟩
  | rollCompletion f => exact dispatchOk_of_kept hs (execRollCompletion_dispatchKept s f)
  | retireFamily l corr p => exact ⟨_, rfl, plainRequest_dispatchOk hs (retireFamilyAct_dispatchKept l corr)⟩
  | familyQuery l corr p => exact ⟨_, rfl, plainRequest_dispatchOk hs (familyQueryAct_dispatchKept l corr)⟩
  | setCeiling l corr p => exact ⟨_, rfl, plainRequest_dispatchOk hs fun a u => setCeilingAct_dispatchKept l corr a.1 u a.2⟩
  | holdLane l corr p => exact ⟨_, rfl, plainRequest_dispatchOk hs fun a u => laneHoldAct_dispatchKept l corr a u true⟩
  | releaseLane l corr p => exact ⟨_, rfl, plainRequest_dispatchOk hs fun a u => laneHoldAct_dispatchKept l corr a u false⟩
  | routeUp l corr p => exact ⟨_, rfl, routeRequest_dispatchOk hs fun _ _ _ _ hu hc => routeUpAct_dispatchOk hu l corr hc⟩
  | routeDown l corr p => exact ⟨_, rfl, routeRequest_dispatchOk hs fun _ _ _ _ hu _ => routeDownAct_dispatchOk hu l corr⟩
  | pullOne l corr p => exact ⟨_, rfl, routeRequest_dispatchOk hs fun _ _ _ _ hu hc => pullOneAct_dispatchOk hu l corr hc⟩
  | pullBlock l corr p =>
    exact ⟨_, rfl, routeRequest_dispatchOk hs fun a _ _ _ hu hc => pullBlockAct_dispatchOk hu l corr hc a.2⟩
  | streamOpen l corr p =>
    exact ⟨_, rfl, routeRequest_dispatchOk hs fun a _ _ _ hu _ => streamOpenAct_dispatchOk hu l corr a.2.1 a.2.2⟩
  | streamClose l corr p =>
    exact ⟨_, rfl, routeRequest_dispatchOk hs fun _ _ _ _ hu _ => streamCloseAct_dispatchOk hu l corr⟩
  | streamOffer l => exact execStreamOffer_dispatchOk hs l
  | transmitComplete l => exact execTransmitComplete_dispatchOk hs l
  | ackOne l corr p =>
    exact ⟨_, rfl, routeRequest_dispatchOk hs fun a _ _ _ hu hc => ackOneAct_dispatchOk hu l corr hc a.2.1 a.2.2⟩
  | ackOldest l corr p =>
    exact ⟨_, rfl, routeRequest_dispatchOk hs fun _ _ _ _ hu hc => ackOldestAct_dispatchOk hu l corr hc⟩
  | ackThrough l corr p =>
    exact ⟨_, rfl, routeRequest_dispatchOk hs fun a _ _ _ hu hc => ackThroughAct_dispatchOk hu l corr hc a.2.1 a.2.2⟩
  | ackTimerExpiry r => exact execAckTimerExpiry_dispatchOk hs r
  | tick => exact execTick_dispatchOk hs
  | nearWarning => exact dispatchOk_of_kept hs (execNearWarning_dispatchKept s)
  | cutoverMatch => exact dispatchOk_of_kept hs (execCutoverMatch_dispatchKept s)
  | cutoverClosingStart => exact dispatchOk_of_kept hs (execCutoverClosingStart_dispatchKept s)
  | cutoverRouteClose => exact dispatchOk_of_kept hs (execCutoverRouteClose_dispatchKept s)
  | cutoverFamilyRoll => exact dispatchOk_of_kept hs (execCutoverFamilyRoll_dispatchKept s)
  | setClock l corr p => exact ⟨_, rfl, plainRequest_dispatchOk hs fun a u => setClockAct_dispatchKept l corr u a⟩
  | setCutover l corr p => exact ⟨_, rfl, plainRequest_dispatchOk hs fun a u => setCutoverAct_dispatchKept l corr u a⟩
  | closeBatch l corr p => exact ⟨_, rfl, plainRequest_dispatchOk hs (closeBatchAct_dispatchKept l corr)⟩
  | deferredClose r => exact dispatchOk_of_kept hs (execDeferredClose_dispatchKept s r)
  | setupBegin l corr p =>
    exact ⟨_, rfl, request_dispatchOk hs abandon_dispatchKept fun a _ hu => setupBeginAct_dispatchOk hu l corr a⟩
  | routeDefine l corr p =>
    exact ⟨_, rfl, request_dispatchOk hs abandon_dispatchKept fun a _ hu => routeDefineAct_dispatchOk hu l corr a⟩
  | setupEnd l corr p =>
    exact ⟨_, rfl, request_dispatchOk hs abandon_dispatchKept fun _ _ hu => setupEndAct_dispatchOk hu l corr⟩
  | statusRead l corr p => exact ⟨_, rfl, plainRequest_dispatchOk hs fun _ _ => .of_eq rfl rfl rfl⟩
  | faultRead l corr p => exact ⟨_, rfl, plainRequest_dispatchOk hs fun _ u => faultReadAct_dispatchKept l corr u⟩
  | routeQuery l corr p => exact ⟨_, rfl, plainRequest_dispatchOk hs (routeQueryAct_dispatchKept l corr)⟩
  | erase l corr p => exact ⟨_, rfl, request_dispatchOk hs DispatchKept.refl fun _ u _ => eraseAct_dispatchOk l corr u⟩
  | warmRestore straps => exact execWarmRestore_dispatchOk hs straps
  | storeLost straps => exact execStoreLost_dispatchOk hs straps
  | resetLine => exact dispatchOk_of_kept hs (execResetLine_dispatchKept s)
  | powerLoss => exact execPowerLoss_dispatchOk hs
  | retentionLoss => exact ⟨_, rfl, hs.kept (.of_eq rfl rfl rfl)⟩
  | unknownKind l corr kind p => exact dispatchOk_of_kept hs (execUnknownKind_dispatchKept s l corr kind p)

/-- Settles O55: configurations in force come from staged ones, which ROUTE DEFINE lets pass only in range; a dispatch state is
written by offers, acknowledgements, the tick, streams and routes brought UP or DOWN, each of which keeps its own range; every
other command leaves the dispatch states. -/
theorem stepKeepsDispatchOk : Obligations.StepKeepsDispatchOk := by
  intro s t hs hstep
  unfold step at hstep
  split at hstep
  · cases hstep
    exact hs
  · next c rest _ =>
    have hb : State.DispatchOk { s with pending := rest } := hs.kept (.of_eq rfl rfl rfl)
    obtain ⟨u, hu, hok⟩ := exec_dispatchOk c hb
    rw [hu] at hstep
    cases hstep
    exact hok

end Sys2Proof.Machine
end

section
/-! The route commands (07_dispatch_and_acknowledgement.md): routes brought UP and DOWN, streams opened and closed, the expiry of
the acknowledgement timer, the choice of a record, pulls, the transmitters, and acknowledgements. -/

namespace Sys2Proof.Machine

/-! ### The route commands on a link that hears them (R116) -/

section

variable {kind : Byte} {l : LinkId} {corr b : Byte} {p : List Byte} {s : State}

/-- A request of a partner link that is heard comes to the checks of its route (R116, R155). -/
theorem routeRequest_heard {α : Type} {parse : List Byte → Option α} {route : α → Byte}
    {act : α → RouteNo → RouteConfig → State → State} {a : α} (h : s.Hears l p.length) (hl : isPartner l = true)
    (hp : parse p = some a) :
    request kind 1 parse id l corr p (fun a => onRoute l corr (route a) (act a)) s = onRoute l corr (route a) (act a) s :=
  request_taken h (linkRing_of_isPartner hl) hp

theorem routeCommand_heard {act : RouteNo → RouteConfig → State → State} (h : s.Hears l 1) (hl : isPartner l = true) :
    routeCommand kind l corr [b] act s = onRoute l corr b act s :=
  request_taken h (linkRing_of_isPartner hl) rfl

/-- A command that comes to the checks of its route has their refusals (R116). -/
theorem refusesRoute_of_onRoute {command : Byte → Instr} {act : RouteNo → RouteConfig → State → State}
    (h : isPartner l = true → ∀ b, exec (command b) s = .next (onRoute l corr b act s)) : RefusesRoute command l corr s := by
  intro hl hp b
  rw [h hl b]
  exact ⟨fun hb => by rw [onRoute_range hp hb], fun r hb hd => by rw [onRoute_undefined hp hb hd]⟩

end

/-! ### ROUTE UP and ROUTE DOWN (R117, R118) -/

section

variable {l : LinkId} {corr b : Byte} {r : RouteNo} {c : RouteConfig} {s : State}

theorem exec_routeUp_heard (h : s.Hears l 1) (hl : isPartner l = true) (b : Byte) :
    exec (.routeUp l corr [b]) s = .next (onRoute l corr b (routeUpAct l corr) s) :=
  congrArg Host.Outcome.next (routeCommand_heard h hl)

theorem exec_routeDown_heard (h : s.Hears l 1) (hl : isPartner l = true) (b : Byte) :
    exec (.routeDown l corr [b]) s = .next (onRoute l corr b (routeDownAct l corr) s) :=
  congrArg Host.Outcome.next (routeCommand_heard h hl)

theorem routeUpAct_up (hup : (s.route r).state = .up) : routeUpAct l corr r c s = s.answer l corr .done := by
  simp [routeUpAct, hup]

theorem routeUpAct_down (hdown : (s.route r).state ≠ .up) :
    routeUpAct l corr r c s = (s.setRoute r ((s.route r).broughtUp c)).answer l corr .done := by
  simp [routeUpAct, hdown]

theorem routeDownAct_up (hup : (s.route r).state = .up) :
    routeDownAct l corr r c s = (s.takeDown r .command .routeDown).answer l corr .done := by
  simp [routeDownAct, hup]

theorem routeDownAct_down (hdown : (s.route r).state ≠ .up) :
    routeDownAct l corr r c s = (s.setRoute r { s.route r with state := .down .command }).answer l corr .done := by
  simp [routeDownAct, hdown]

end

/-- Settles O29: each command by the route's dispatch state, ROUTE DOWN of an UP route by whether a stream is open. -/
theorem routeUpAndDown : Obligations.RouteUpAndDown := by
  refine ⟨fun l corr s h => ⟨refusesRoute_of_onRoute fun hl => exec_routeUp_heard h hl,
    refusesRoute_of_onRoute fun hl => exec_routeDown_heard h hl⟩, fun l corr b r c s h hl hp hb hc => ?_⟩
  rw [exec_routeUp_heard h hl, exec_routeDown_heard h hl, onRoute_taken hp hb hc, onRoute_taken hp hb hc]
  refine ⟨fun hup => ⟨?_, fun hst => ?_, fun st hst => ?_⟩, fun hdown => ⟨?_, ?_⟩⟩
  · rw [routeUpAct_up hup]
  · rw [routeDownAct_up hup, takeDown_closed _ _ hst]
    rfl
  · rw [routeDownAct_up hup, takeDown_open _ _ hst]
    rfl
  · rw [routeUpAct_down hdown]
    rfl
  · rw [routeDownAct_down hdown]

/-! ### STREAM OPEN and STREAM CLOSE (R124) -/

section

variable {l : LinkId} {corr : Byte} {r : RouteNo} {c : RouteConfig} {s : State}

theorem exec_streamOpen_heard (h : s.Hears l 3) (hl : isPartner l = true) (b n renew : Byte) :
    exec (.streamOpen l corr [b, n, renew]) s = .next (onRoute l corr b (streamOpenAct l corr n renew) s) :=
  congrArg Host.Outcome.next (routeRequest_heard (a := (b, n, renew)) h hl rfl)

theorem exec_streamClose_heard (h : s.Hears l 1) (hl : isPartner l = true) (b : Byte) :
    exec (.streamClose l corr [b]) s = .next (onRoute l corr b (streamCloseAct l corr) s) :=
  congrArg Host.Outcome.next (routeCommand_heard h hl)

theorem streamOpenAct_renew {n renew : Byte} (h : 2 ≤ renew.toNat) :
    streamOpenAct l corr n renew r c s = s.answer l corr .badParameter := by
  simp [streamOpenAct, flagOf_eq_none h]

theorem streamOpenAct_down {n renew : Byte} (h : renew.toNat ≤ 1) (hdown : (s.route r).state ≠ .up) :
    streamOpenAct l corr n renew r c s = s.answer l corr .routeDown := by
  simp [streamOpenAct, flagOf_of_le h, hdown]

theorem streamOpenAct_up {n renew : Byte} (h : renew.toNat ≤ 1) (hup : (s.route r).state = .up) :
    streamOpenAct l corr n renew r c s = (s.setRoute r { s.route r with
      stream := some ⟨max n.toNat 1, max n.toNat 1, renew == 1#8, l, corr⟩ }).answer l corr .done := by
  simp [streamOpenAct, flagOf_of_le h, hup, streamCount]

end

/-- Settles O34: STREAM OPEN by its renew byte and the route's dispatch state; STREAM CLOSE writes the stream alone. -/
theorem streamsOpenAndClose : Obligations.StreamsOpenAndClose := by
  refine ⟨fun l corr n renew s => ⟨fun h => refusesRoute_of_onRoute fun hl b => exec_streamOpen_heard h hl b n renew,
    fun h => refusesRoute_of_onRoute fun hl => exec_streamClose_heard h hl⟩,
    fun l corr b n r c s hl hp hb hc => ⟨fun h => ?_, fun h => ?_⟩⟩
  · have hact : ∀ renew, exec (.streamOpen l corr [b, n, renew]) s = .next (streamOpenAct l corr n renew r c s) := by
      intro renew
      rw [exec_streamOpen_heard h hl, onRoute_taken hp hb hc]
    refine ⟨fun renew hr => ?_, fun hdown => ⟨?_, ?_⟩, fun hup => ⟨?_, ?_⟩⟩
    · rw [hact, streamOpenAct_renew hr]
    · rw [hact, streamOpenAct_down (by decide) hdown]
    · rw [hact, streamOpenAct_down (by decide) hdown]
    · rw [hact, streamOpenAct_up (by decide) hup]
      rfl
    · rw [hact, streamOpenAct_up (by decide) hup]
      rfl
  · rw [exec_streamClose_heard h hl, onRoute_taken hp hb hc]
    rfl

/-! ### The expiry of the acknowledgement timer (R132) -/

theorem expired_iff (timer : AckTimer) : timer.expired = true ↔ timer = .running 0 := by
  cases timer with
  | stopped => simp [AckTimer.expired]
  | running n => cases n <;> simp [AckTimer.expired]

/-- Timers that stand at 0 expire in route order (R132). -/
theorem expiringRoute_iff (s : State) (r : RouteNo) : s.expiringRoute = some r ↔
    (s.route r).timer = .running 0 ∧ ∀ q, q < r → (s.route q).timer ≠ .running 0 := by
  unfold State.expiringRoute
  rw [List.find?_eq_some_iff_getElem, expired_iff]
  refine and_congr_right fun _ => ⟨?_, fun hbefore => ⟨r.val, by simp, by simp, fun j hj => ?_⟩⟩
  · rintro ⟨i, hi, hir, hbefore⟩ q hq hexpired
    have hiv : i = r.val := by simpa using congrArg Fin.val hir
    have hskipped := hbefore q.val (hiv ▸ hq)
    simp [(expired_iff _).mpr hexpired] at hskipped
  · have hfree := hbefore ⟨j, by omega⟩ hj
    simpa [← expired_iff] using hfree

/-- Settles O38: a route's timer expires exactly when it is the first at 0, and the route is then taken DOWN. -/
theorem timerExpiryTakesDown : Obligations.TimerExpiryTakesDown := by
  refine ⟨fun s r q hq hzero => ?_, fun s r hon hzero hbefore => ?_⟩
  · have hother : s.expiringRoute ≠ some r := fun h => ((expiringRoute_iff s r).mp h).2 q hq hzero
    simp [exec, execAckTimerExpiry, hother]
  · have hfirst : s.expiringRoute = some r := (expiringRoute_iff s r).mpr ⟨hzero, hbefore⟩
    have hexpires : exec (.ackTimerExpiry r) s =
        .next (((s.takeDown r .timeout .timeout).raise .ackTimeout).logFault .ackTimeout r.val) := by
      simp [exec, execAckTimerExpiry, awake_of_on hon, hfirst]
    rw [hexpires]
    cases hst : (s.route r).stream with
    | none =>
      rw [takeDown_closed _ _ hst]
      rfl
    | some st =>
      rw [takeDown_open _ _ hst]
      rfl

/-! ### A route's records and its heads (R96, R99, R103, R108) -/

section

variable (s : State) (r : RouteNo)

theorem mem_slotsOf (n : Nat) : n ∈ s.slotsOf r ↔
    (∃ pos, (s.queue r).live.top ≤ pos ∧ pos < (s.queue r).live.bottom ∧ n = (livePlace r).slot pos) ∨
    (∃ pos, (s.queue r).store.top ≤ pos ∧ pos < (s.queue r).store.bottom ∧ n = (s.storePlace r).slot pos) ∨
    n ∈ (s.queue r).overflow := by
  simp only [State.slotsOf, routeSlots, RouteQueue.liveSlots, RouteQueue.ringSlots, List.append_assoc, List.mem_append,
    List.mem_map, Ring.mem_positions, and_assoc, eq_comm (a := n)]

theorem storePlace_slot (pos : Nat) : (s.storePlace r).slot pos =
    64 + ringsBelow s.status.config r.val + pos % ringSize (s.config r) := rfl

theorem recordPlaces : RecordPlaces s r := by
  refine ⟨mem_slotsOf s r, fun pos => ⟨rfl, fun c hc => ?_⟩⟩
  refine ⟨_, Nat.le_add_right 64 (ringsBelow s.status.config r.val), ?_⟩
  rw [storePlace_slot, hc]
  rfl

/-- A batch waits where one of its records is PENDING (R108). -/
theorem batchPending_eq_false (ns : List Nat) (batch : Nat) : batchPending s.qm.slots ns batch = false ↔
    ∀ n ∈ ns, ∀ rec, s.at? n = some rec → rec.id.batch = batch → rec.state ≠ .pending := by
  unfold batchPending
  rw [List.any_eq_false]
  refine forall₂_congr fun n _ => ?_
  rw [← State.at?]
  cases hn : s.at? n with
  | none => simp
  | some rec => simp [imp_not_comm]

theorem closeHead_iff (cl : CloseRecord) : s.closeHead r = some cl ↔ (s.queue r).buffer = some cl ∧ cl.state = .pending ∧
    ∀ n ∈ s.slotsOf r, ∀ rec, s.at? n = some rec → rec.id.batch = cl.id.batch → rec.state ≠ .pending := by
  unfold State.closeHead
  cases hb : (s.queue r).buffer with
  | none => simp
  | some c =>
    dsimp only
    rw [Option.some.injEq, ← batchPending_eq_false]
    split
    · next h =>
      rw [Option.some.injEq]
      refine ⟨?_, fun hcl => hcl.1⟩
      rintro rfl
      exact ⟨rfl, h⟩
    · next h =>
      refine ⟨nofun, ?_⟩
      rintro ⟨rfl, hcl⟩
      exact absurd hcl h

variable {s r}

theorem liveHead_offer (h : (s.queue r).live.offer < (s.queue r).live.bottom) : s.liveHead r =
    (s.at? ((livePlace r).slot (s.queue r).live.offer)).map fun rec => ((livePlace r).slot (s.queue r).live.offer, rec) :=
  if_pos h

theorem liveHead_none (h : (s.queue r).live.bottom ≤ (s.queue r).live.offer) : s.liveHead r = none :=
  if_neg (Nat.not_lt.mpr h)

theorem storeHead_ring (h : (s.queue r).store.offer < (s.queue r).store.bottom) : s.storeHead r =
    (s.at? ((s.storePlace r).slot (s.queue r).store.offer)).map fun rec =>
      ((s.storePlace r).slot (s.queue r).store.offer, rec) :=
  if_pos h

/-- Past the store ring the head is the first PENDING record of the overflow part (R103). -/
theorem storeHead_overflow (h : (s.queue r).store.bottom ≤ (s.queue r).store.offer) : s.storeHead r =
    ((s.queue r).overflow.find? fun n => slotIs s.qm.slots n .pending).bind s.slotRecord := by
  unfold State.storeHead
  dsimp only
  rw [if_neg (Nat.not_lt.mpr h)]
  cases (s.queue r).overflow.find? fun n => slotIs s.qm.slots n .pending <;> rfl

theorem storeHead_first {before after : List Nat} {n : Nat} {rec : Record}
    (h : (s.queue r).store.bottom ≤ (s.queue r).store.offer) (hsplit : (s.queue r).overflow = before ++ n :: after)
    (hbefore : ∀ m ∈ before, ¬ ∃ x, s.at? m = some x ∧ x.state = .pending) (hn : s.at? n = some rec)
    (hp : rec.state = .pending) : s.storeHead r = some (n, rec) := by
  have hfind : (s.queue r).overflow.find? (fun n => slotIs s.qm.slots n .pending) = some n := by
    refine List.find?_eq_some_iff_append.mpr ⟨(slotIs_iff s n _).mpr ⟨rec, hn, hp⟩, before, after, hsplit, fun m hm => ?_⟩
    rw [Bool.not_eq_true', Bool.eq_false_iff, ne_eq, slotIs_iff]
    exact hbefore m hm
  rw [storeHead_overflow h, hfind]
  simp [State.slotRecord, hn]

theorem storeHead_none (h : (s.queue r).store.bottom ≤ (s.queue r).store.offer)
    (hnone : ∀ n ∈ (s.queue r).overflow, ¬ ∃ x, s.at? n = some x ∧ x.state = .pending) : s.storeHead r = none := by
  have hfind : (s.queue r).overflow.find? (fun n => slotIs s.qm.slots n .pending) = none :=
    List.find?_eq_none.mpr fun n hn => by simpa [slotIs_iff] using hnone n hn
  rw [storeHead_overflow h, hfind]
  rfl

theorem headsPresented (s : State) (r : RouteNo) : HeadsPresented s r :=
  ⟨closeHead_iff s r, liveHead_offer, liveHead_none, storeHead_ring, fun h =>
    ⟨fun _ _ _ _ hsplit hbefore hn hp => storeHead_first h hsplit hbefore hn hp, fun hnone => storeHead_none h hnone⟩⟩

end

/-- Settles O31: the places and heads as the queues' lemmas have them, the choice by which heads there are. -/
theorem selectionOrder : Obligations.SelectionOrder := by
  refine ⟨fun s r => ⟨recordPlaces s r, headsPresented s r⟩, fun s r c => ⟨fun cl hcl => ?_, fun hnone =>
    ⟨fun lv st hlive hstore => ⟨fun he => ?_, fun he => ?_⟩, fun lv hlive hstore => ?_, fun st hlive hstore => ?_,
      fun hlive hstore => ?_⟩⟩⟩
  · simp only [State.choose, hcl, chooseHead]
  · simp only [State.choose, hnone, hlive, hstore, chooseHead, drainChoice, if_pos he]
  · simp only [State.choose, hnone, hlive, hstore, chooseHead, drainChoice, if_neg (Nat.not_le.mpr he)]
  · simp only [State.choose, hnone, hlive, hstore, chooseHead]
  · simp only [State.choose, hnone, hlive, hstore, chooseHead]
  · simp only [State.choose, hnone, hlive, hstore, chooseHead]

/-! ### One offer (R121) -/

section

variable {s : State} {r : RouteNo} {c : RouteConfig}

theorem offering_eq_offeredOnce (d : RouteDispatch) (c : RouteConfig) (id : Identity) (e : Nat) :
    d.offering c id e = offeredOnce d c id e := by
  simp [RouteDispatch.offering, offeredOnce, nextTag, startTimer]

/-- A report of a record event, before the release test, makes the entry follow the record (R17). -/
theorem reportHistory_followed (e : Terminal) (id : Identity) (ev : RecordEvent) :
    { e with history := reportHistory id ev e.history } = followed e id ev.before ev.after := by
  simp [followed, reportHistory, HistoryEntry.hears]

theorem offer_none {corr : Byte} (h : s.choose r c = none) : s.offer r c corr = none := by
  simp [State.offer, h]

theorem offer_data {corr : Byte} {n e : Nat} {rec : Record} (h : s.choose r c = some (.data n rec, e)) :
    s.offer r c corr = some (s.offerData r c n rec e, .offered corr r (tagOf c (s.route r).tag) (.data rec.offering)) := by
  simp [State.offer, h]

theorem offer_close {corr : Byte} {e : Nat} {cl : CloseRecord} (h : s.choose r c = some (.close cl, e)) :
    s.offer r c corr = some (s.offerClose r c cl e, .offered corr r (tagOf c (s.route r).tag) (.close cl.offering)) := by
  simp [State.offer, h]

/-- The offer of a data record reaches its terminal's entry and no other (R17, R121). -/
theorem offerData_term (n : Nat) (rec : Record) (e : Nat) (tn : TerminalNo) : (s.offerData r c n rec e).term tn =
    if tn = rec.terminal then followed (s.term tn) rec.id .pending .offered else s.term tn := by
  have hreport : (s.offerData r c n rec e).term tn =
      Vec.get (reportTo s.engine s.terminals rec.terminal rec.id .offered) tn := rfl
  rw [hreport, reportTo_offered, Vec.get_put]
  by_cases ht : tn = rec.terminal
  · subst ht
    rw [if_pos rfl, if_pos rfl]
    exact reportHistory_followed _ _ .offered
  · rw [if_neg (Ne.symm ht), if_neg ht]
    rfl

/-- An offer writes its own route's queue alone. -/
theorem offer_queue_ne {s' : State} {corr : Byte} {m : Message} (h : s.offer r c corr = some (s', m)) {q : RouteNo}
    (hq : q ≠ r) : s'.queue q = s.queue q := by
  rcases offer_cases h with ⟨n, rec, e, -, rfl, -⟩ | ⟨cl, e, -, rfl, -⟩ <;> exact Vec.get_put_ne _ _ hq.symm

end

/-! ### PULL ONE (R122) -/

section

variable {l : LinkId} {corr : Byte} {r : RouteNo} {c : RouteConfig} {s : State}

theorem exec_pullOne_heard (h : s.Hears l 1) (hl : isPartner l = true) (b : Byte) :
    exec (.pullOne l corr [b]) s = .next (onRoute l corr b (pullOneAct l corr) s) :=
  congrArg Host.Outcome.next (routeCommand_heard h hl)

theorem windowOpen_of_lt (h : (s.route r).offered.length < c.window) : s.windowOpen r c = true := decide_eq_true h

theorem windowOpen_of_le (h : c.window ≤ (s.route r).offered.length) : s.windowOpen r c = false :=
  decide_eq_false (Nat.not_lt.mpr h)

theorem pullOneAct_down (hdown : (s.route r).state ≠ .up) : pullOneAct l corr r c s = s.answer l corr .routeDown := by
  simp [pullOneAct, hdown]

theorem pullOneAct_full (hup : (s.route r).state = .up) (hw : c.window ≤ (s.route r).offered.length) :
    pullOneAct l corr r c s = s.answer l corr .windowFull := by
  simp [pullOneAct, hup, windowOpen_of_le hw]

theorem pullOneAct_empty (hup : (s.route r).state = .up) (hw : (s.route r).offered.length < c.window)
    (hc : s.choose r c = none) : pullOneAct l corr r c s = s.answer l corr .empty := by
  simp [pullOneAct, hup, windowOpen_of_lt hw, offer_none hc]

theorem pullOneAct_offers {u : State} {m : Message} (hup : (s.route r).state = .up)
    (hw : (s.route r).offered.length < c.window) (ho : s.offer r c corr = some (u, m)) :
    pullOneAct l corr r c s = u.send l m := by
  simp [pullOneAct, hup, windowOpen_of_lt hw, ho]

end

/-- Settles O32: the refusals in their order, then the offer of the record chosen, sent as the answer. -/
theorem pullOneOffers : Obligations.PullOneOffers := by
  refine ⟨fun l corr s h => refusesRoute_of_onRoute fun hl => exec_pullOne_heard h hl, fun l corr b r c s h hl hp hb hc => ?_⟩
  dsimp only
  rw [exec_pullOne_heard h hl, onRoute_taken hp hb hc]
  refine ⟨fun hdown => ?_, fun hup => ⟨fun hw => ?_, fun hw =>
    ⟨fun hnone => ?_, fun n rec e hch => ?_, fun cl e hch => ?_⟩⟩⟩
  · rw [pullOneAct_down hdown]
  · rw [pullOneAct_full hup hw]
  · rw [pullOneAct_empty hup hw hnone]
  · have ho : s.offer r c corr = some (s.offerData r c n rec e, _) := offer_data hch
    refine ⟨_, _, congrArg Host.Outcome.next (pullOneAct_offers hup hw ho), ho, rfl, Store.find_put_same _ _ _,
      fun m hm => Store.find_put_ne _ _ hm, ⟨_, _, rfl, ⟨rfl, rfl, seekOffer_atFirstPending _ _ _⟩,
        ⟨rfl, rfl, seekOffer_atFirstPending _ _ _⟩⟩, offerData_term (r := r) (c := c) n rec e, ?_, rfl,
      rfl, rfl, rfl, rfl, rfl, rfl, rfl, rfl⟩
    rw [← offering_eq_offeredOnce]
    rfl
  · have ho : s.offer r c corr = some (s.offerClose r c cl e, _) := offer_close hch
    rw [← offering_eq_offeredOnce]
    exact ⟨ho, congrArg Host.Outcome.next (pullOneAct_offers hup hw ho)⟩

/-! ### PULL BLOCK (R123) -/

section

variable {l : LinkId} {corr : Byte} {r : RouteNo} {c : RouteConfig}

/-- What each offer keeps, offers in turn keep (R123). -/
theorem offersInTurn_keeps (P : State → Prop) (hoffer : ∀ b b' m, P b → b.offer r c corr = some (b', m) → P b')
    {frames : List Message} {s u : State} (h : OffersInTurn r c corr frames s u) (hs : P s) : P u := by
  induction frames generalizing s with
  | nil => exact (show u = s from h) ▸ hs
  | cons m more ih =>
    obtain ⟨-, v, ho, hrest⟩ := h
    exact ih hrest (hoffer s v m hs ho)

/-- An offer takes one entry of the window (R121). -/
theorem offer_offered {s s' : State} {m : Message} (h : s.offer r c corr = some (s', m)) :
    (s'.route r).offered.length = (s.route r).offered.length + 1 := by
  obtain ⟨id, e, hroute⟩ := offer_route_offering h
  rw [hroute]
  simp [RouteDispatch.offering]

theorem offer_route_ne {s s' : State} {m : Message} (h : s.offer r c corr = some (s', m)) {q : RouteNo} (hq : q ≠ r) :
    s'.route q = s.route q := by
  obtain ⟨id, e, -, -, hkept⟩ := offer_dispatchKept h
  rw [State.route, hkept.routes]
  exact State.route_setRoute_ne s _ hq.symm

/-- Offers in turn lengthen the list by their number. -/
theorem offersInTurn_offered_length {frames : List Message} {s u : State} (h : OffersInTurn r c corr frames s u) :
    (u.route r).offered.length = (s.route r).offered.length + frames.length := by
  induction frames generalizing s with
  | nil => exact (show u = s from h) ▸ rfl
  | cons m more ih =>
    obtain ⟨-, v, ho, hrest⟩ := h
    have hlen := ih hrest
    rw [offer_offered ho] at hlen
    simp only [List.length_cons]
    omega

/-- Offers in turn do not pass the window (R119). -/
theorem offersInTurn_window {frames : List Message} {s u : State} (h : OffersInTurn r c corr frames s u)
    (hs : (s.route r).offered.length ≤ c.window) : (u.route r).offered.length ≤ c.window := by
  induction frames generalizing s with
  | nil => exact (show u = s from h) ▸ hs
  | cons m more ih =>
    obtain ⟨hw, v, ho, hrest⟩ := h
    exact ih hrest (by rw [offer_offered ho]; exact hw)

theorem offersInTurn_other {frames : List Message} {s u : State} (h : OffersInTurn r c corr frames s u) {q : RouteNo}
    (hq : q ≠ r) : u.route q = s.route q ∧ u.queue q = s.queue q :=
  offersInTurn_keeps (fun b => b.route q = s.route q ∧ b.queue q = s.queue q) (fun _ _ _ hb ho =>
    ⟨(offer_route_ne ho hq).trans hb.1, (offer_queue_ne ho hq).trans hb.2⟩) h ⟨rfl, rfl⟩

/-- Offers in turn leave the blocks that an offer leaves (R121). -/
theorem offersInTurn_frame {frames : List Message} {s u : State} (h : OffersInTurn r c corr frames s u) :
    u.links = s.links ∧ u.status = s.status ∧ u.accounts = s.accounts ∧ u.keys = s.keys ∧ u.intake = s.intake ∧
      u.engine = s.engine ∧ u.cutover = s.cutover := by
  refine offersInTurn_keeps (fun b => b.links = s.links ∧ b.status = s.status ∧ b.accounts = s.accounts ∧
    b.keys = s.keys ∧ b.intake = s.intake ∧ b.engine = s.engine ∧ b.cutover = s.cutover) (fun b b' m hb ho => ?_)
    h ⟨rfl, rfl, rfl, rfl, rfl, rfl, rfl⟩
  obtain ⟨h1, h2, h3, h4, h5, h6, h7⟩ := hb
  obtain ⟨k1, k2, k3, k4, k5, k6, k7⟩ := offer_frame ho
  exact ⟨k1.trans h1, k2.trans h2, k3.trans h3, k4.trans h4, k5.trans h5, k6.trans h6, k7.trans h7⟩

/-- How a PULL BLOCK's offers end, with the count allowed and the number made: at the count, at the window, or with nothing to
choose (R123). -/
def EndsBy (r : RouteNo) (c : RouteConfig) (count made : Nat) (u : State) : EndCause → Prop
  | .count => made = count
  | .windowFull => made < count ∧ c.window ≤ (u.route r).offered.length
  | .empty => made < count ∧ u.choose r c = none
  | _ => False

/-- A PULL BLOCK's frames are those of offers made in turn, and its cause says why there are no more (R123). -/
theorem offerRun_spec (n : Nat) (s : State) :
    OffersInTurn r c corr (State.offerRun r c corr n s).frames s (State.offerRun r c corr n s).state ∧
    EndsBy r c n (State.offerRun r c corr n s).frames.length (State.offerRun r c corr n s).state
      (State.offerRun r c corr n s).cause := by
  induction n generalizing s with
  | zero => exact ⟨rfl, rfl⟩
  | succ n ih =>
    cases hw : s.windowOpen r c with
    | false =>
      simp only [State.offerRun, hw, Bool.false_eq_true, if_false]
      exact ⟨rfl, Nat.succ_pos n, Nat.not_lt.mp (of_decide_eq_false hw)⟩
    | true =>
      cases ho : s.offer r c corr with
      | none =>
        simp only [State.offerRun, hw, ho, if_true]
        refine ⟨rfl, Nat.succ_pos n, ?_⟩
        cases hc : s.choose r c with
        | none => rfl
        | some found =>
          obtain ⟨choice, e⟩ := found
          cases choice with
          | data slot rec => simp [offer_data hc] at ho
          | close cl => simp [offer_close hc] at ho
      | some found =>
        obtain ⟨v, m⟩ := found
        simp only [State.offerRun, hw, ho, if_true]
        obtain ⟨hturn, hends⟩ := ih v
        refine ⟨⟨of_decide_eq_true hw, v, ho, hturn⟩, ?_⟩
        revert hends
        cases (State.offerRun r c corr n v).cause <;> simp [EndsBy]

/-- The causes and the number made that a run can end with. -/
theorem EndsBy.cases {count made : Nat} {u : State} {cause : EndCause} (h : EndsBy r c count made u cause) :
    made ≤ count ∧ (cause = .count ↔ made = count) ∧ (cause = .windowFull → c.window ≤ (u.route r).offered.length) ∧
    (cause = .empty → u.choose r c = none) ∧ (cause = .count ∨ cause = .windowFull ∨ cause = .empty) := by
  cases cause with
  | count => exact ⟨Nat.le_of_eq h, by simp [show made = count from h], nofun, nofun, Or.inl rfl⟩
  | windowFull => exact ⟨Nat.le_of_lt h.1, by simp [Nat.ne_of_lt h.1], fun _ => h.2, nofun, Or.inr (Or.inl rfl)⟩
  | empty => exact ⟨Nat.le_of_lt h.1, by simp [Nat.ne_of_lt h.1], nofun, fun _ => h.2, Or.inr (Or.inr rfl)⟩
  | routeDown => exact h.elim
  | timeout => exact h.elim

/-- The entry of a PULL BLOCK is its frames and then BLOCK_END (R123, R156). -/
theorem blockEntry_run (frames : List Message) (last : Message) :
    ∃ first more, blockEntry frames last = .run first more ∧ first :: more = frames ++ [last] := by
  cases frames with
  | nil => exact ⟨last, [], rfl, rfl⟩
  | cons m ms => exact ⟨m, ms ++ [last], rfl, rfl⟩

variable {s : State}

theorem exec_pullBlock_heard (h : s.Hears l 2) (hl : isPartner l = true) (b n : Byte) :
    exec (.pullBlock l corr [b, n]) s = .next (onRoute l corr b (pullBlockAct l corr n) s) :=
  congrArg Host.Outcome.next (routeRequest_heard (a := (b, n)) h hl rfl)

theorem pullBlockAct_down {n : Byte} (hdown : (s.route r).state ≠ .up) :
    pullBlockAct l corr n r c s = s.answer l corr .routeDown := by
  simp [pullBlockAct, hdown]

theorem pullBlockAct_up {n : Byte} (hup : (s.route r).state = .up) :
    pullBlockAct l corr n r c s =
      (State.offerRun r c corr (min (max n.toNat 1) 32) s).state.enqueue l
        (blockEntry (State.offerRun r c corr (min (max n.toNat 1) 32) s).frames
          (.blockEnd corr r (State.offerRun r c corr (min (max n.toNat 1) 32) s).frames.length
            (State.offerRun r c corr (min (max n.toNat 1) 32) s).cause)) := by
  simp [pullBlockAct, hup, blockCount]

end

/-- Settles O33: the run's frames are offers made in turn, which keep the window; its entry is pushed on the link of the
request. -/
theorem pullBlockRun : Obligations.PullBlockRun := by
  refine ⟨fun l corr n s h => refusesRoute_of_onRoute fun hl b => exec_pullBlock_heard h hl b n,
    fun l corr b n r c s h hl hp hb hc => ?_⟩
  rw [exec_pullBlock_heard h hl, onRoute_taken hp hb hc]
  refine ⟨fun hdown => by rw [pullBlockAct_down hdown], fun hup => ?_⟩
  rw [pullBlockAct_up hup]
  obtain ⟨hturn, hends⟩ := offerRun_spec (r := r) (c := c) (corr := corr) (min (max n.toNat 1) 32) s
  generalize State.offerRun r c corr (min (max n.toNat 1) 32) s = run at hturn hends ⊢
  obtain ⟨first, more, hentry, hrun⟩ := blockEntry_run run.frames (.blockEnd corr r run.frames.length run.cause)
  obtain ⟨hlinks, hstatus, haccounts, hkeys, hintake, hengine, hcutover⟩ := offersInTurn_frame hturn
  obtain ⟨hmade, hcount, hfull, hempty, hcauses⟩ := hends.cases
  have hlength := offersInTurn_offered_length hturn
  have hwindow := offersInTurn_window hturn
  have hother := fun (q : RouteNo) (hq : q ≠ r) => offersInTurn_other hturn hq
  have hlink : ∀ m, run.state.link m = s.link m := fun m => by rw [State.link, hlinks]; rfl
  rw [hentry]
  refine ⟨_, run.state, run.frames, run.cause, first, more, rfl, hturn, rfl, hrun, ?_, hmade, hcount, hlength,
    hfull, hempty, hcauses, hwindow, hother, fun m hm => ?_, hstatus, hintake, hengine, hkeys,
    haccounts, hcutover⟩
  · rw [← hlink l]
    exact Vec.get_put_same _ _ _
  · rw [← hlink m]
    exact Vec.get_put_ne _ _ fun e => hm (linkIndex_injective e).symm

/-! ### Ready streams (R125, R126) -/

section

variable {s : State} {l : LinkId} {r : RouteNo}

theorem streamReady_iff : s.streamReady l r = true ↔ StreamReady s l r := by
  constructor
  · intro h
    obtain ⟨c, st, hc, hst, hl, hp, hup, hw, hch⟩ := streamReady_cases h
    exact ⟨c, st, hc, hst, hl, hp, hup, of_decide_eq_true hw, Option.isSome_iff_ne_none.mp hch⟩
  · rintro ⟨c, st, hc, hst, rfl, hp, hup, hw, hch⟩
    simp [State.streamReady, hc, hst, hp, hup, windowOpen_of_lt hw, Option.isSome_iff_ne_none.mpr hch]

/-- The stream served next is the ready one met first after the pointer (R126). -/
theorem nextStream_iff : s.nextStream l = some r ↔ StreamReady s l r ∧ ∀ q, StreamReady s l q → q ≠ r →
    searchPlace (s.link l).pointer r < searchPlace (s.link l).pointer q := by
  constructor
  · intro h
    have hready : s.streamReady l r = true := List.find?_some (p := fun r => s.streamReady l r) h
    exact ⟨streamReady_iff.mp hready, fun q hq hne => rotation_first h (streamReady_iff.mpr hq) hne⟩
  · rintro ⟨hready, hfirst⟩
    cases hn : s.nextStream l with
    | none => exact absurd (streamReady_iff.mpr hready) (List.find?_eq_none.mp hn r (mem_rotationFrom _ r))
    | some q =>
      have hq : s.streamReady l q = true := List.find?_some (p := fun r => s.streamReady l r) hn
      by_contra hne
      have hqr : q ≠ r := fun e => hne (congrArg some e)
      have hbefore := hfirst q (streamReady_iff.mp hq) hqr
      have hafter := rotation_first hn (streamReady_iff.mpr hready) hqr.symm
      omega

theorem nextStream_none_iff : s.nextStream l = none ↔ ∀ r, ¬ StreamReady s l r := by
  simp only [← streamReady_iff]
  exact ⟨fun h r => List.find?_eq_none.mp h r (mem_rotationFrom _ r), fun h => List.find?_eq_none.mpr fun r _ => h r⟩

/-! ### The front of a response queue (R126) -/

/-- A response queue once the first message of its front run has left: the rest of the run stays at the front (R126). -/
def runLeft (more : List Message) (rest : List QueueEntry) : List QueueEntry :=
  match more with
  | [] => rest
  | m :: more => .run m more :: rest

theorem takeMessage_run {k : Link} {m : Message} {more : List Message} {rest : List QueueEntry}
    (h : k.queue = .run m more :: rest) :
    k.takeMessage = some { k with sending := some m.send, queue := runLeft more rest } := by
  cases more <;> simp [Link.takeMessage, h, runLeft]

theorem takeMessage_none {k : Link} (h : ∀ m more rest, k.queue ≠ .run m more :: rest) : k.takeMessage = none := by
  unfold Link.takeMessage
  split
  · next m rest hq => exact absurd hq (h m [] rest)
  · next m m' more rest hq => exact absurd hq (h m (m' :: more) rest)
  · rfl

/-! ### A stream served (R125) -/

theorem setLink_setLink (s : State) (l : LinkId) (a b : Link) : (s.setLink l a).setLink l b = s.setLink l b := by
  simp [State.setLink]

theorem setLink_link (s : State) (l : LinkId) : s.setLink l (s.link l) = s := by
  simp [State.setLink, State.link]

/-- The transmitter of a link has finished its message and chooses the next (R126). -/
def State.sent (s : State) (l : LinkId) : State := s.setLink l { s.link l with sending := none }

theorem link_sent (s : State) (l : LinkId) : (s.sent l).link l = { s.link l with sending := none } :=
  State.link_setLink s l _

theorem sent_idle (h : (s.link l).sending = none) : s.sent l = s := by
  unfold State.sent
  rw [← h]
  exact setLink_link s l

theorem sent_nextStream (s : State) (l : LinkId) : (s.sent l).nextStream l = s.nextStream l := by
  unfold State.nextStream
  rw [link_sent]
  rfl

theorem sent_takeMessage_run {m : Message} {more : List Message} {rest : List QueueEntry}
    (h : (s.link l).queue = .run m more :: rest) : ((s.sent l).link l).takeMessage =
      some { s.link l with sending := some m.send, queue := runLeft more rest } := by
  rw [link_sent]
  exact takeMessage_run (k := { s.link l with sending := none }) h

theorem sent_takeMessage_none (h : ∀ m more rest, (s.link l).queue ≠ .run m more :: rest) :
    ((s.sent l).link l).takeMessage = none := by
  rw [link_sent]
  exact takeMessage_none h

/-- What a link holds has no part in an offer. -/
theorem offer_sent {c : RouteConfig} {corr : Byte} {t : State} {m : Message} (h : s.offer r c corr = some (t, m)) :
    ∃ u, (s.sent l).offer r c corr = some (u, m) ∧ u.dispatch = t.dispatch ∧
      u.qm = t.qm ∧ u.terminals = t.terminals := by
  rcases offer_cases h with ⟨n, rec, e, hc, rfl, rfl⟩ | ⟨cl, e, hc, rfl, rfl⟩
  · exact ⟨_, offer_data hc, rfl, rfl, rfl⟩
  · exact ⟨_, offer_close hc, rfl, rfl, rfl⟩

theorem serveStream_offered {c : RouteConfig} {st : OpenStream} {t : State} {m : Message} (hc : s.config r = some c)
    (hst : (s.route r).stream = some st) (ho : s.offer r c st.corr = some (t, m)) : s.serveStream l r =
      ((t.setLink l { t.link l with sending := some m.send, pointer := r }).setRoute r
        { t.route r with stream := st.counted }).endByCount r st := by
  simp only [State.serveStream, hc, hst, ho]
  rfl

/-- The count of a stream after one of its offers, and what it puts on the stream's link (R125). -/
theorem endByCount_joins (st : OpenStream) (r : RouteNo) : ∃ joins, StreamCounted st r st.counted joins ∧
    ∀ s : State, s.endByCount r st =
      s.setLink st.link { s.link st.link with queue := (s.link st.link).queue ++ joins } := by
  by_cases hone : 1 < st.current
  · have hcount : st.counted = some { st with current := st.current - 1 } := by simp [OpenStream.counted, hone]
    refine ⟨[], ⟨fun _ => ⟨hcount, rfl⟩, by omega, by omega⟩, fun s => ?_⟩
    simp only [State.endByCount, hcount, List.append_nil]
    exact (setLink_link s st.link).symm
  · cases hrenew : st.renew with
    | true =>
      have hcount : st.counted = some { st with current := st.base } := by simp [OpenStream.counted, hone, hrenew]
      refine ⟨[], ⟨by omega, fun _ _ => ⟨hcount, rfl⟩, by simp [hrenew]⟩, fun s => ?_⟩
      simp only [State.endByCount, hcount, List.append_nil]
      exact (setLink_link s st.link).symm
    | false =>
      have hcount : st.counted = none := by simp [OpenStream.counted, hone, hrenew]
      refine ⟨[.run (.streamEnd st.corr r .count) []], ⟨by omega, by simp [hrenew], fun _ _ => ⟨hcount, rfl⟩⟩,
        fun s => ?_⟩
      simp only [State.endByCount, hcount]
      rfl

/-! ### The transmitter's choice (R126) -/

theorem nextMessage_front {k : Link} (h : (s.link l).takeMessage = some k) : s.nextMessage l = s.setLink l k := by
  simp [State.nextMessage, h]

theorem nextMessage_idle (h : (s.link l).takeMessage = none) (hn : s.nextStream l = none) : s.nextMessage l = s := by
  simp [State.nextMessage, h, hn]

theorem nextMessage_stream (h : (s.link l).takeMessage = none) (hn : s.nextStream l = some r) :
    s.nextMessage l = s.serveStream l r := by
  simp [State.nextMessage, h, hn]

theorem exec_transmitComplete (hon : s.supply = .on) : exec (.transmitComplete l) s = .next ((s.sent l).nextMessage l) := by
  simp [exec, execTransmitComplete, awake_of_on hon, State.sent]

/-- STREAM_OFFER on an idle transmitter with no message at the front is the choice of TRANSMIT_COMPLETE. -/
theorem exec_streamOffer_idle (hon : s.supply = .on) (hidle : (s.link l).sending = none)
    (hfront : (s.link l).takeMessage = none) : exec (.streamOffer l) s = exec (.transmitComplete l) s := by
  rw [exec_transmitComplete hon, sent_idle hidle]
  simp [exec, execStreamOffer, awake_of_on hon, hidle, hfront]

/-- A ready stream served: one offer, its frame on the wire, the pointer at its route, the count taken down, and what the
count puts on the link; all else is as the offer leaves it (R125, R126). -/
theorem serveStream_effect {c : RouteConfig} {st : OpenStream} {t : State} {m : Message} (hc : s.config r = some c)
    (hst : (s.route r).stream = some st) (ho : s.offer r c st.corr = some (t, m)) :
    ∃ joins, StreamCounted st r st.counted joins ∧
      (s.serveStream st.link r).links = Vec.put s.links (linkIndex st.link) { s.link st.link with
        sending := some m.send
        pointer := r
        queue := (s.link st.link).queue ++ joins } ∧
      (s.serveStream st.link r).dispatch = Vec.put t.dispatch r { t.route r with stream := st.counted } ∧
      (s.serveStream st.link r).qm = t.qm ∧ (s.serveStream st.link r).terminals = t.terminals ∧
      (s.serveStream st.link r).status = t.status ∧ (s.serveStream st.link r).accounts = t.accounts ∧
      (s.serveStream st.link r).keys = t.keys ∧ (s.serveStream st.link r).intake = t.intake ∧
      (s.serveStream st.link r).engine = t.engine ∧ (s.serveStream st.link r).cutover = t.cutover := by
  obtain ⟨joins, hcounted, hends⟩ := endByCount_joins st r
  obtain ⟨hlinks, -⟩ := offer_frame ho
  refine ⟨joins, hcounted, ?_⟩
  rw [serveStream_offered hc hst ho, hends]
  refine ⟨?_, rfl, rfl, rfl, rfl, rfl, rfl, rfl, rfl, rfl⟩
  simp [State.setLink, State.setRoute, State.link, hlinks]

end

/-- Settles O35: the ready streams in the order of the search, then the three outcomes of the transmitter's choice. -/
theorem transmitterTakesNext : Obligations.TransmitterTakesNext := by
  refine ⟨fun s l => ⟨fun r => nextStream_iff, nextStream_none_iff⟩, fun l s m more rest hon hq => ?_,
    fun l s hon hq hn => ?_, fun l s r c st t m hon hq hn hc hst ho => ?_⟩
  · rw [exec_transmitComplete hon, nextMessage_front (sent_takeMessage_run hq), State.sent, setLink_setLink]
    cases more <;> rfl
  · rw [exec_transmitComplete hon, nextMessage_idle (sent_takeMessage_none hq) ((sent_nextStream s l).trans hn)]
    rfl
  · obtain ⟨-, st', -, hst', rfl, -⟩ := streamReady_cases (streamReady_iff.mpr (nextStream_iff.mp hn).1)
    obtain rfl : st = st' := Option.some.inj (hst.symm.trans hst')
    have hgo : exec (.transmitComplete st.link) s = .next ((s.sent st.link).serveStream st.link r) := by
      rw [exec_transmitComplete hon, nextMessage_stream (sent_takeMessage_none hq) ((sent_nextStream s st.link).trans hn)]
    obtain ⟨v, hov, hdispatch, hqm, hterminals⟩ := offer_sent (l := st.link) ho
    obtain ⟨-, hstatus, haccounts, hkeys, hintake, hengine, hcutover⟩ := offer_frame hov
    obtain ⟨joins, hcounted, klinks, kdispatch, kqm, kterminals, kstatus, kaccounts, kkeys, kintake, kengine, kcutover⟩ :=
      serveStream_effect (s := s.sent st.link) hc hst hov
    have hroute : v.route r = t.route r := by rw [State.route, hdispatch]; rfl
    refine ⟨_, st.counted, joins, hgo, hcounted,
      fun hidle => (exec_streamOffer_idle hon hidle (takeMessage_none hq)).trans hgo, ?_, fun k hk => ?_,
      by rw [kdispatch, hdispatch, hroute], kqm.trans hqm, kterminals.trans hterminals, kstatus.trans hstatus,
      kaccounts.trans haccounts, kkeys.trans hkeys, kintake.trans hintake, kengine.trans hengine, kcutover.trans hcutover⟩
    · rw [State.link, klinks, Vec.get_put_same, link_sent]
      rfl
    · rw [State.link, klinks, Vec.get_put_ne _ _ fun e => hk (linkIndex_injective e).symm]
      exact State.link_setLink_ne s _ hk.symm

/-! ### Identities and pairs (R110, R127, R129) -/

theorem batchAge_eq {current b : Nat} (h : b ≤ 65535) : (batchAge current b : Int) = ((current : Int) - b) % 65535 := by
  unfold batchAge
  omega

theorem atOrBelow_iff (current sq S : Nat) {b B : Nat} (hb : b ≤ 65535) (hB : B ≤ 65535) :
    atOrBelow current b sq B S = true ↔ ((current : Int) - B) % 65535 < ((current : Int) - b) % 65535 ∨
      (((current : Int) - b) % 65535 = ((current : Int) - B) % 65535 ∧ sq ≤ S) := by
  simp only [atOrBelow, Bool.or_eq_true, Bool.and_eq_true, decide_eq_true_eq, beq_iff_eq, ← batchAge_eq hb,
    ← batchAge_eq hB, Int.ofNat_lt, Int.ofNat_inj]

section

variable {s : State} {r : RouteNo} {id : Identity}

/-- The slot an identity names is one of the route's, and its record carries the identity (R127). -/
theorem slotOf_some {n : Nat} (h : s.slotOf r id = some n) :
    n ∈ s.slotsOf r ∧ ∃ rec, s.at? n = some rec ∧ rec.id = id := by
  refine ⟨List.mem_of_find?_eq_some h, ?_⟩
  have hcarries := List.find?_some h
  cases hn : s.at? n with
  | none => simp [hn] at hcarries
  | some rec => exact ⟨rec, rfl, by simpa [hn] using hcarries⟩

theorem slotOf_none (h : s.slotOf r id = none) {n : Nat} (hn : n ∈ s.slotsOf r) {rec : Record}
    (hrec : s.at? n = some rec) : rec.id ≠ id := by
  have hother := List.find?_eq_none.mp h n hn
  simpa [hrec] using hother

theorem isOffered_slot {n : Nat} (h : s.slotOf r id = some n) :
    s.isOffered r id = true ↔ ∃ rec, s.at? n = some rec ∧ rec.state = .offered := by
  simp only [State.isOffered, h]
  exact slotIs_iff s n .offered

theorem isOffered_close (h : s.slotOf r id = none) :
    s.isOffered r id = true ↔ ∃ cl, (s.queue r).buffer = some cl ∧ cl.id = id ∧ cl.state = .offered := by
  simp only [State.isOffered, h]
  cases (s.queue r).buffer <;> simp

end

theorem recordNamed (s : State) (r : RouteNo) (id : Identity) : RecordNamed s r id := by
  refine ⟨fun n h => slotOf_some h, fun h n hn rec hrec => slotOf_none h hn hrec, ?_⟩
  cases hs : s.slotOf r id with
  | some n => simp [isOffered_slot hs]
  | none => simp [isOffered_close hs]

/-! ### ACK ONE, ACK OLDEST and ACK THROUGH (R127 to R129) -/

section

variable {l : LinkId} {corr : Byte} {r : RouteNo} {c : RouteConfig} {s : State}

theorem exec_ackOne_heard (h : s.Hears l 5) (hl : isPartner l = true) (b b1 b0 s1 s0 : Byte) :
    exec (.ackOne l corr [b, b1, b0, s1, s0]) s =
      .next (onRoute l corr b (ackOneAct l corr (numberOf [b1, b0]) (numberOf [s1, s0])) s) :=
  congrArg Host.Outcome.next (routeRequest_heard (a := (b, numberOf [b1, b0], numberOf [s1, s0])) h hl rfl)

theorem exec_ackThrough_heard (h : s.Hears l 5) (hl : isPartner l = true) (b b1 b0 s1 s0 : Byte) :
    exec (.ackThrough l corr [b, b1, b0, s1, s0]) s =
      .next (onRoute l corr b (ackThroughAct l corr (numberOf [b1, b0]) (numberOf [s1, s0])) s) :=
  congrArg Host.Outcome.next (routeRequest_heard (a := (b, numberOf [b1, b0], numberOf [s1, s0])) h hl rfl)

theorem exec_ackOldest_heard (h : s.Hears l 1) (hl : isPartner l = true) (b : Byte) :
    exec (.ackOldest l corr [b]) s = .next (onRoute l corr b (ackOldestAct l corr) s) :=
  congrArg Host.Outcome.next (routeCommand_heard h hl)

theorem ackOneAct_offered {batch sq : Nat} (h : s.isOffered r ⟨r, batch, sq⟩ = true) :
    ackOneAct l corr batch sq r c s = (s.acknowledge r c ⟨r, batch, sq⟩).answer l corr .done (.acked 1) :=
  if_pos h

theorem ackOneAct_notOffered {batch sq : Nat} (h : s.isOffered r ⟨r, batch, sq⟩ = false) :
    ackOneAct l corr batch sq r c s = s.answer l corr .notOffered :=
  if_neg (by simp [h])

theorem ackOldestAct_empty (h : (s.route r).offered = []) : ackOldestAct l corr r c s = s.answer l corr .notOffered := by
  simp [ackOldestAct, h]

theorem ackOldestAct_first {id : Identity} {rest : List Identity} (h : (s.route r).offered = id :: rest) :
    ackOldestAct l corr r c s = (s.acknowledge r c id).answer l corr .done (.ackedOldest 1 id) := by
  simp [ackOldestAct, h]

end

/-- Settles O36: ages read modulo 65,535, an identity by the search of the route's slots, and each command by what it finds
OFFERED. -/
theorem acknowledgementsTaken : Obligations.AcknowledgementsTaken := by
  refine ⟨fun current b sq B S hb hB => atOrBelow_iff current sq S hb hB, recordNamed, fun l corr b1 b0 s1 s0 s =>
    ⟨fun h => ⟨refusesRoute_of_onRoute fun hl b => exec_ackOne_heard h hl b b1 b0 s1 s0,
      refusesRoute_of_onRoute fun hl b => exec_ackThrough_heard h hl b b1 b0 s1 s0⟩,
      fun h => refusesRoute_of_onRoute fun hl => exec_ackOldest_heard h hl⟩,
    fun l corr b r c s hl hp hb hc => ⟨fun b1 b0 s1 s0 h => ?_, fun h => ?_⟩⟩
  · dsimp only
    rw [exec_ackOne_heard h hl, exec_ackThrough_heard h hl, onRoute_taken hp hb hc, onRoute_taken hp hb hc]
    exact ⟨fun ho => by rw [ackOneAct_offered ho], fun ho => by rw [ackOneAct_notOffered ho], rfl⟩
  · rw [exec_ackOldest_heard h hl, onRoute_taken hp hb hc]
    exact ⟨fun he => by rw [ackOldestAct_empty he], fun id rest he => by rw [ackOldestAct_first he]⟩

/-! ### The list and the timer at an acknowledgement (R130, R131) -/

theorem unlisting_eq (d : RouteDispatch) (c : RouteConfig) (id : Identity) : d.unlisting c id = { d with
    offered := d.offered.erase id
    timer :=
      if d.offered.head? = some id then
        (if d.offered.erase id = [] then .stopped else if c.timeout = 0 then .stopped else .running c.timeout)
      else d.timer } := by
  simp only [RouteDispatch.unlisting, startTimer, List.isEmpty_iff]

/-! ### An acknowledged close record (R111, R130) -/

section

variable {s : State} {r : RouteNo} {c : RouteConfig} {id : Identity}

theorem settleDeferred_none (h : ∀ p, (s.queue r).pending = some p → p.wait ≠ .buffer) : s.settleDeferred r = s := by
  unfold State.settleDeferred
  dsimp only
  split
  · rfl
  · next p hp => exact if_neg fun hw => h p hp hw.1

/-- Where no data record carries the identity and the close record does, its buffer is FREE and a close that waits for it is
settled (R130). -/
theorem acknowledge_close {cl : CloseRecord} (hs : s.slotOf r id = none) (hb : (s.queue r).buffer = some cl)
    (hid : cl.id = id) : s.acknowledge r c id = State.settleDeferred ((s.setRoute r ((s.route r).unlisting c id)).setQueue r
      { s.queue r with buffer := none }) r := by
  have hslot : (s.setRoute r ((s.route r).unlisting c id)).slotOf r id = none := hs
  have hbuffer : ((s.setRoute r ((s.route r).unlisting c id)).queue r).buffer = some cl := hb
  simp only [State.acknowledge, State.ackAtQueues, hslot, hbuffer, if_pos hid]
  rfl

/-- An OFFERED data record that carries the identity is acknowledged in its slot (R130). -/
theorem acknowledge_data {n : Nat} {rec : Record} (hs : s.slotOf r id = some n) (hn : s.at? n = some rec)
    (ho : rec.state = .offered) :
    s.acknowledge r c id = (s.setRoute r ((s.route r).unlisting c id)).ackRecord r n rec := by
  have hslot : (s.setRoute r ((s.route r).unlisting c id)).slotOf r id = some n := hs
  have hrec : (s.setRoute r ((s.route r).unlisting c id)).at? n = some rec := hn
  simp only [State.acknowledge, State.ackAtQueues, hslot, hrec, if_pos ho]

end

/-! ### The terminal's entry (R11, R17) -/

theorem releasable_iff (engine : Engine) (t : TerminalNo) (e : Terminal) :
    releasable engine t e = true ↔ PassesRelease engine t e := by
  have hserves := servesTerminal_eq_false (engine := engine) (t := t)
  simp only [releasable, Bool.and_eq_true, beq_iff_eq, Bool.not_eq_true', hserves, PassesRelease, and_assoc,
    List.any_eq_false, HistoryEntry.outstanding, Bool.or_eq_true, not_or]

/-- The entry after the report of an acknowledgement: the history follows the record, and a change is followed by the release
test (R11, R17). -/
theorem reportTo_self (engine : Engine) (ts : Vector Terminal 64) (t : TerminalNo) (id : Identity) (ev : RecordEvent) :
    Vec.get (reportTo engine ts t id ev) t =
      if (Vec.get ts t).history.any (fun h => h.hears id ev) then
        release engine t (followed (Vec.get ts t) id ev.before ev.after)
      else followed (Vec.get ts t) id ev.before ev.after := by
  unfold reportTo
  dsimp only
  rw [← reportHistory_followed]
  split
  · exact Vec.get_put_same _ _ _
  · next h => rw [reportHistory_unheard (by simpa using h)]

/-! ### What an acknowledgement frees (R105, R106) -/

section

variable {qm : QueueManager} {r : RouteNo} {place : RingPlace} {slot : Nat}

theorem freeAfterAck_overflow (h : slot ∈ (Vec.get qm.queues r).overflow) : freeAfterAck qm r place slot =
    { slots := Store.free qm.slots slot
      poolFree := qm.poolFree ++ [slot]
      queues := Vec.put qm.queues r
        { Vec.get qm.queues r with overflow := (Vec.get qm.queues r).overflow.filter (· != slot) } } := by
  simp [freeAfterAck, h]

/-- What the acknowledgement of a ring's record does to the ring and the records: a sweep where the record stands at top
(R105). -/
def ringAfterAck (place : RingPlace) (slot : Nat) (g : Ring) (slots : List (Nat × Record)) : Ring × List (Nat × Record) :=
  if place.slot g.top = slot then sweepTop place g.occupancy g slots else (g, slots)

theorem freeAfterAck_live (h : slot ∉ (Vec.get qm.queues r).overflow) (hlive : slot < 64) :
    freeAfterAck qm r place slot =
      let out := ringAfterAck (livePlace r) slot (Vec.get qm.queues r).live qm.slots
      { qm with
        slots := out.2
        queues := Vec.put qm.queues r { Vec.get qm.queues r with live := out.1.seekOffer (livePlace r) out.2 } } := by
  simp [freeAfterAck, ringAfterAck, h, hlive, Config.liveSlots]

theorem freeAfterAck_store (h : slot ∉ (Vec.get qm.queues r).overflow) (hstore : 64 ≤ slot) :
    freeAfterAck qm r place slot =
      let out := ringAfterAck place slot (Vec.get qm.queues r).store qm.slots
      { qm with
        slots := out.2
        queues := Vec.put qm.queues r { Vec.get qm.queues r with store := out.1.seekOffer place out.2 } } := by
  simp [freeAfterAck, ringAfterAck, h, Nat.not_lt.mpr hstore, Config.liveSlots]

theorem ringAfterAck_within {g : Ring} {slots : List (Nat × Record)} (h : place.slot g.top ≠ slot) :
    ringAfterAck place slot g slots = (g, slots) := if_neg h

/-- A ring whose top record is ACKED is swept (R105). -/
theorem ringAfterAck_swept {g : Ring} {slots : List (Nat × Record)} (h : place.slot g.top = slot) (hg : g.top < g.bottom)
    (hacked : slotIs slots slot .acked = true) :
    Swept g ((ringAfterAck place slot g slots).1.seekOffer place (ringAfterAck place slot g slots).2) place slots
      (ringAfterAck place slot g slots).2 := by
  subst h
  obtain ⟨hle, hmost, hbottom, hfreed, hstop, hother⟩ := sweepTop_spec place g.occupancy g slots
  rw [ringAfterAck, if_pos rfl]
  have hend : g.top + g.occupancy = g.bottom := by
    unfold Ring.occupancy
    omega
  rw [hend] at hmost hstop
  refine ⟨?_, hmost, hbottom, hfreed, hstop, hother, seekOffer_atFirstPending _ _ _⟩
  by_contra hstill
  have hsame : (sweepTop place g.occupancy g slots).1.top = g.top := Nat.le_antisymm (Nat.not_lt.mp hstill) hle
  rw [hsame] at hstop hother
  have htop := hstop hg
  rw [slotIs, hother _ fun x h1 h2 => absurd h2 (Nat.not_lt.mpr h1), ← slotIs, hacked] at htop
  cases htop

end

/-! ### Where a data record stands (R96, R99) -/

section

variable {s : State} {r : RouteNo} {n : Nat}

theorem livePlace_slot_lt (r : RouteNo) (pos : Nat) : (livePlace r).slot pos < 64 := by
  have hslot : (livePlace r).slot pos = 16 * r.val + pos % 16 := rfl
  have hr := r.isLt
  omega

/-- A record below slot 64 that is not an overflow record stands in the live ring, which is then not empty. -/
theorem live_nonempty (h : n ∈ s.slotsOf r) (hover : n ∉ (s.queue r).overflow) (hn : n < 64) :
    (s.queue r).live.top < (s.queue r).live.bottom := by
  rcases (mem_slotsOf s r n).mp h with ⟨pos, h1, h2, -⟩ | ⟨pos, -, -, hp⟩ | hp
  · exact Nat.lt_of_le_of_lt h1 h2
  · rw [storePlace_slot] at hp
    omega
  · exact absurd hp hover

theorem store_nonempty (h : n ∈ s.slotsOf r) (hover : n ∉ (s.queue r).overflow) (hn : 64 ≤ n) :
    (s.queue r).store.top < (s.queue r).store.bottom := by
  rcases (mem_slotsOf s r n).mp h with ⟨pos, -, -, hp⟩ | ⟨pos, h1, h2, -⟩ | hp
  · have := livePlace_slot_lt r pos
    omega
  · exact Nat.lt_of_le_of_lt h1 h2
  · exact absurd hp hover

end

/-! ### An acknowledged data record (R105, R106, R130) -/

section

variable {s : State} {r : RouteNo} {n : Nat} {rec : Record}

/-- The records once one of them is ACKED in its slot (R130). -/
def State.ackedSlots (s : State) (n : Nat) (rec : Record) : List (Nat × Record) :=
  Store.put s.qm.slots n { rec with state := .acked }

theorem ackRecord_qm : (s.ackRecord r n rec).qm =
    freeAfterAck { s.qm with slots := s.ackedSlots n rec } r (s.storePlace r) n := rfl

theorem ackedSlots_self : Store.find (s.ackedSlots n rec) n = some { rec with state := .acked } := Store.find_put_same _ _ _

theorem ackedSlots_acked : slotIs (s.ackedSlots n rec) n .acked = true := by
  simp [slotIs, ackedSlots_self]

/-- An overflow record leaves its part and its slot (R106). -/
theorem ackRecord_overflow (h : n ∈ (s.queue r).overflow) : (s.ackRecord r n rec).at? n = none ∧
    (s.ackRecord r n rec).qm.poolFree = s.qm.poolFree ++ [n] ∧ n ∉ ((s.ackRecord r n rec).queue r).overflow := by
  have hqm := ackRecord_qm.trans (freeAfterAck_overflow (qm := { s.qm with slots := s.ackedSlots n rec })
    (place := s.storePlace r) h)
  rw [State.at?, State.queue, hqm]
  exact ⟨Store.find_free_same _ _, rfl, by simp⟩

/-- A live ring's record changes its own ring (R105). -/
theorem ackRecord_live (h : n ∉ (s.queue r).overflow) (hn : n < 64) :
    (s.ackRecord r n rec).qm.slots = (ringAfterAck (livePlace r) n (s.queue r).live (s.ackedSlots n rec)).2 ∧
    ((s.ackRecord r n rec).queue r).live = (ringAfterAck (livePlace r) n (s.queue r).live (s.ackedSlots n rec)).1.seekOffer
      (livePlace r) (ringAfterAck (livePlace r) n (s.queue r).live (s.ackedSlots n rec)).2 := by
  have hqm := ackRecord_qm.trans (freeAfterAck_live (qm := { s.qm with slots := s.ackedSlots n rec })
    (place := s.storePlace r) h hn)
  exact ⟨congrArg QueueManager.slots hqm, (congrArg (fun qm => (Vec.get qm.queues r).live) hqm).trans
    (congrArg RouteQueue.live (Vec.get_put_same _ _ _))⟩

/-- A store ring's record changes its own ring (R105). -/
theorem ackRecord_store (h : n ∉ (s.queue r).overflow) (hn : 64 ≤ n) :
    (s.ackRecord r n rec).qm.slots = (ringAfterAck (s.storePlace r) n (s.queue r).store (s.ackedSlots n rec)).2 ∧
    ((s.ackRecord r n rec).queue r).store = (ringAfterAck (s.storePlace r) n (s.queue r).store (s.ackedSlots n rec)).1.seekOffer
      (s.storePlace r) (ringAfterAck (s.storePlace r) n (s.queue r).store (s.ackedSlots n rec)).2 := by
  have hqm := ackRecord_qm.trans (freeAfterAck_store (qm := { s.qm with slots := s.ackedSlots n rec })
    (place := s.storePlace r) h hn)
  exact ⟨congrArg QueueManager.slots hqm, (congrArg (fun qm => (Vec.get qm.queues r).store) hqm).trans
    (congrArg RouteQueue.store (Vec.get_put_same _ _ _))⟩

theorem ackRecord_live_within (h : n ∉ (s.queue r).overflow) (hn : n < 64)
    (htop : (livePlace r).slot (s.queue r).live.top ≠ n) :
    (s.ackRecord r n rec).at? n = some { rec with state := .acked } ∧
      ((s.ackRecord r n rec).queue r).live.top = (s.queue r).live.top := by
  obtain ⟨hslots, hring⟩ := ackRecord_live (rec := rec) h hn
  rw [ringAfterAck_within htop] at hslots hring
  rw [State.at?, hslots, hring]
  exact ⟨ackedSlots_self, rfl⟩

theorem ackRecord_store_within (h : n ∉ (s.queue r).overflow) (hn : 64 ≤ n)
    (htop : (s.storePlace r).slot (s.queue r).store.top ≠ n) :
    (s.ackRecord r n rec).at? n = some { rec with state := .acked } ∧
      ((s.ackRecord r n rec).queue r).store.top = (s.queue r).store.top := by
  obtain ⟨hslots, hring⟩ := ackRecord_store (rec := rec) h hn
  rw [ringAfterAck_within htop] at hslots hring
  rw [State.at?, hslots, hring]
  exact ⟨ackedSlots_self, rfl⟩

theorem ackRecord_live_swept (hm : n ∈ s.slotsOf r) (h : n ∉ (s.queue r).overflow) (hn : n < 64)
    (htop : (livePlace r).slot (s.queue r).live.top = n) :
    Swept (s.queue r).live ((s.ackRecord r n rec).queue r).live (livePlace r) (s.ackedSlots n rec)
      (s.ackRecord r n rec).qm.slots := by
  obtain ⟨hslots, hring⟩ := ackRecord_live (rec := rec) h hn
  rw [hslots, hring]
  exact ringAfterAck_swept htop (live_nonempty hm h hn) ackedSlots_acked

theorem ackRecord_store_swept (hm : n ∈ s.slotsOf r) (h : n ∉ (s.queue r).overflow) (hn : 64 ≤ n)
    (htop : (s.storePlace r).slot (s.queue r).store.top = n) :
    Swept (s.queue r).store ((s.ackRecord r n rec).queue r).store (s.storePlace r) (s.ackedSlots n rec)
      (s.ackRecord r n rec).qm.slots := by
  obtain ⟨hslots, hring⟩ := ackRecord_store (rec := rec) h hn
  rw [hslots, hring]
  exact ringAfterAck_swept htop (store_nonempty hm h hn) ackedSlots_acked

theorem ackRecord_term_ne {tn : TerminalNo} (h : tn ≠ rec.terminal) : (s.ackRecord r n rec).term tn = s.term tn :=
  reportTo_other h.symm

/-- The terminal's entry follows its record, and leaves where a change passes the release test (R11, R17). -/
theorem ackRecord_term :
    let e := followed (s.term rec.terminal) rec.id .offered .acked
    let leaves := (∃ h ∈ (s.term rec.terminal).history, h.id = rec.id ∧ h.disposition = .offered) ∧
      PassesRelease s.engine rec.terminal e
    (leaves → (s.ackRecord r n rec).term rec.terminal = Terminal.vacant) ∧
      (¬ leaves → (s.ackRecord r n rec).term rec.terminal = e) := by
  have hentry : (s.ackRecord r n rec).term rec.terminal = _ :=
    reportTo_self s.engine s.terminals rec.terminal rec.id .acked
  have hheard : (s.term rec.terminal).history.any (fun h => h.hears rec.id .acked) = true ↔
      ∃ h ∈ (s.term rec.terminal).history, h.id = rec.id ∧ h.disposition = .offered := by
    simp [HistoryEntry.hears, RecordEvent.before]
  dsimp only
  rw [hentry, ← hheard, ← releasable_iff]
  refine ⟨fun ⟨hh, hr⟩ => ?_, fun hstays => ?_⟩
  · exact (if_pos hh).trans (if_pos hr)
  · split
    · next hh => exact if_neg fun hr => hstays ⟨hh, hr⟩
    · rfl

end

/-- Settles O37: a close record's acknowledgement frees the buffer and settles the close that waits for it; a data record's is
followed on the list, at its terminal, and in the overflow part or ring where it stands. -/
theorem acknowledgementEffects : Obligations.AcknowledgementEffects := by
  refine ⟨fun s r c id cl hs hb hid => ?_, fun s r c id n rec hs hn ho => ?_⟩
  · dsimp only
    rw [acknowledge_close (c := c) hs hb hid, ← unlisting_eq]
    have hqueue := State.queue_setQueue (s.setRoute r ((s.route r).unlisting c id)) r { s.queue r with buffer := none }
    generalize hfree : State.setQueue _ r _ = free at hqueue ⊢
    have hengine : free.engine = s.engine := hfree ▸ rfl
    rw [← hengine]
    refine ⟨fun hp => settleDeferred_none (by rwa [hqueue]), fun p hp hwait => ⟨fun hw => ?_, fun hw => ?_⟩⟩
    · exact settleDeferred_performed (by rwa [hqueue]) hwait (by rw [hqueue]) hw
    · rw [settleDeferred_waits (p := p) (by rwa [hqueue]) hwait (by rw [hqueue]) hw, hqueue]
  · have hm := (slotOf_some hs).1
    have hacked := acknowledge_data (c := c) hs hn ho
    dsimp only
    rw [hacked, ← unlisting_eq]
    generalize hd : (s.route r).unlisting c id = d
    exact ⟨State.route_setRoute s r d, fun q hq => State.route_setRoute_ne s d hq.symm, fun tn => ackRecord_term_ne,
      ackRecord_term (s := s.setRoute r d), ackRecord_overflow (s := s.setRoute r d),
      ackRecord_live_within (s := s.setRoute r d), ackRecord_store_within (s := s.setRoute r d),
      ackRecord_live_swept (s := s.setRoute r d) hm, ackRecord_store_swept (s := s.setRoute r d) hm,
      State.ackRecord_status _ r n rec, State.ackRecord_links _ r n rec, State.ackRecord_intake _ r n rec,
      State.ackRecord_engine _ r n rec, State.ackRecord_keys _ r n rec, State.ackRecord_accounts _ r n rec,
      State.ackRecord_cutover _ r n rec⟩

end Sys2Proof.Machine
end

section
/-! The Cut-over Unit (08_cut_over_and_batch_close.md, R137 to R145): every step keeps its fields as its stage says, with a
cut-over roll only of the next family in ROLLING. -/

namespace Sys2Proof.Machine

/-! ### The unit's own fields (R137, R139, R141, R142) -/

/-- The Cut-over Unit's fields as its stage says, beside the families. -/
structure CutoverUnit.Ok (u : CutoverUnit) : Prop where
  clock   : u.clock.sec < Config.daySeconds ∧ u.clock.day ≤ 65535
  setting : u.setting.hour.Ok ∧ u.setting.minute ≤ 59
  idle    : u.stage = .idle → u.matchTime = none ∧ u.nextRoute = none ∧ u.nextFamily = none
  closing : u.stage = .waiting ∨ u.stage = .closing → u.matchTime.isSome ∧ u.nextRoute.isSome ∧ u.nextFamily = some 0
  rolling : u.stage = .rolling → u.matchTime.isSome ∧ u.nextRoute = none ∧ u.nextFamily.isSome
  near    : u.near = true ∨ u.nearDue = true → u.stage = .idle

/-- The part's invariant is the unit's and the place of a cut-over roll (R145). -/
theorem cutoverOk_iff (s : State) : s.CutoverOk ↔
    s.cutover.Ok ∧ ∀ f, (s.family f).op = .cutoverRoll → s.cutover.stage = .rolling ∧ s.cutover.nextFamily = some f :=
  ⟨fun h => ⟨⟨h.clock, h.setting, h.idle, h.closing, h.rolling, h.near⟩, h.roll⟩,
    fun ⟨h, hroll⟩ => ⟨h.clock, h.setting, h.idle, h.closing, h.rolling, hroll, h.near⟩⟩

theorem State.CutoverOk.unit {s : State} (h : s.CutoverOk) : s.cutover.Ok := ((cutoverOk_iff s).mp h).1

/-- A unit that is IDLE has only its clock and setting to keep in range. -/
theorem CutoverUnit.ok_of_idle {u : CutoverUnit} (hst : u.stage = .idle)
    (hclock : u.clock.sec < Config.daySeconds ∧ u.clock.day ≤ 65535) (hset : u.setting.hour.Ok ∧ u.setting.minute ≤ 59)
    (hnone : u.matchTime = none ∧ u.nextRoute = none ∧ u.nextFamily = none) : u.Ok := by
  refine ⟨hclock, hset, fun _ => hnone, ?_, ?_, fun _ => hst⟩ <;> simp [hst]

theorem CutoverUnit.initial_ok : CutoverUnit.initial.Ok :=
  CutoverUnit.ok_of_idle rfl (by decide) ⟨Nat.zero_le _, Nat.zero_le _⟩ ⟨rfl, rfl, rfl⟩

/-- Clock and setting written in range, a warning ended or begun only while IDLE; the procedure as it was. -/
theorem CutoverUnit.Ok.rewritten {u v : CutoverUnit} (h : u.Ok)
    (hclock : v.clock.sec < Config.daySeconds ∧ v.clock.day ≤ 65535) (hset : v.setting.hour.Ok ∧ v.setting.minute ≤ 59)
    (hst : v.stage = u.stage) (hm : v.matchTime = u.matchTime) (hr : v.nextRoute = u.nextRoute)
    (hf : v.nextFamily = u.nextFamily) (hnear : v.near = true ∨ v.nearDue = true → u.stage = .idle) : v.Ok := by
  refine ⟨hclock, hset, ?_, ?_, ?_, ?_⟩
  · rw [hst, hm, hr, hf]
    exact h.idle
  · rw [hst, hm, hr, hf]
    exact h.closing
  · rw [hst, hm, hr, hf]
    exact h.rolling
  · rw [hst]
    exact hnear

theorem CutoverUnit.Ok.withoutNear {u : CutoverUnit} (h : u.Ok) : u.withoutNear.Ok :=
  h.rewritten h.clock h.setting rfl rfl rfl rfl (by simp [CutoverUnit.withoutNear])

theorem CutoverUnit.Ok.setTo {u : CutoverUnit} (h : u.Ok) {t : ClockTime} (ht : t.sec < Config.daySeconds ∧ t.day ≤ 65535) :
    (u.setTo t).Ok :=
  h.rewritten ht h.setting rfl rfl rfl rfl (by simp [CutoverUnit.setTo, CutoverUnit.withoutNear])

theorem CutoverUnit.Ok.lapse {u : CutoverUnit} (h : u.Ok) : u.lapse.Ok :=
  h.rewritten h.clock h.setting rfl rfl rfl rfl fun hnear => h.near (Or.inl (by simpa [CutoverUnit.lapse] using hnear))

/-- A match fills in the procedure's fields and ends the warning (R143). -/
theorem CutoverUnit.Ok.matched {u : CutoverUnit} (h : u.Ok) (t : ClockTime) (engineIdle : Bool) :
    (u.matched t engineIdle).Ok := by
  refine ⟨h.clock, h.setting, ?_, fun _ => ⟨rfl, rfl, rfl⟩, ?_, ?_⟩ <;> cases engineIdle <;>
    simp [CutoverUnit.matched, CutoverUnit.withoutNear]

/-- A warning is not in force outside IDLE (R141). -/
theorem CutoverUnit.Ok.not_near {u : CutoverUnit} (h : u.Ok) (hst : u.stage ≠ .idle) : ¬ (u.near = true ∨ u.nearDue = true) :=
  fun hn => hst (h.near hn)

/-- One route's request made in CLOSING leaves CLOSING with the next route, or ROLLING after the last (R144). -/
theorem CutoverUnit.Ok.routeDone {u : CutoverUnit} (h : u.Ok) (hst : u.stage = .closing) (following : Option RouteNo) :
    (u.routeDone following).Ok := by
  obtain ⟨hm, -, hf⟩ := h.closing (Or.inr hst)
  have hnear : ¬ (u.near = true ∨ u.nearDue = true) := h.not_near (by simp [hst])
  cases following with
  | none =>
    exact ⟨h.clock, h.setting, nofun, by simp [CutoverUnit.routeDone],
      fun _ => ⟨hm, rfl, by simp [CutoverUnit.routeDone, hf]⟩, fun hn => absurd hn hnear⟩
  | some q => exact ⟨h.clock, h.setting, nofun, fun _ => ⟨hm, rfl, hf⟩, nofun, fun hn => absurd hn hnear⟩

/-- A family dealt with in ROLLING leaves ROLLING with the next family, or IDLE after the last (R145). -/
theorem CutoverUnit.Ok.familyDone {u : CutoverUnit} (h : u.Ok) (hst : u.stage = .rolling) (f : FamilyNo) :
    (u.familyDone f).Ok := by
  obtain ⟨hm, hr, -⟩ := h.rolling hst
  have hnear : ¬ (u.near = true ∨ u.nearDue = true) := h.not_near (by simp [hst])
  unfold CutoverUnit.familyDone
  split
  · refine ⟨h.clock, h.setting, ?_, ?_, fun _ => ⟨hm, hr, rfl⟩, fun hn => absurd hn hnear⟩ <;> simp [hst]
  · exact CutoverUnit.ok_of_idle rfl h.clock h.setting ⟨rfl, hr, rfl⟩

/-- The clock stays within its day and its days (R137). -/
theorem nextSecond_range {t : ClockTime} (h : t.day ≤ 65535) :
    (nextSecond t).sec < Config.daySeconds ∧ (nextSecond t).day ≤ 65535 := by
  unfold nextSecond
  split
  · next hsec => exact ⟨hsec, h⟩
  · refine ⟨Nat.succ_pos _, ?_⟩
    dsimp only
    split <;> omega

theorem cutoverArmed_iff (s : State) : s.cutoverArmed = true ↔ CutoverArmed s := by
  simp [State.cutoverArmed, CutoverArmed, and_assoc]

/-- A tick makes a warning due only while IDLE (R141). -/
theorem tickDue_ok {s : State} (h : s.cutover.Ok) : (s.tickDue (nextSecond s.cutover.clock)).Ok := by
  refine h.rewritten (nextSecond_range h.clock.2) h.setting rfl rfl rfl rfl ?_
  rintro (hnear | hdue)
  · exact h.near (Or.inl hnear)
  · rcases (Bool.or_eq_true _ _).mp hdue with hdue | hdue
    · exact h.near (Or.inr hdue)
    · obtain ⟨-, -, -, hidle⟩ := (cutoverArmed_iff s).mp ((Bool.and_eq_true _ _).mp hdue).1
      exact hidle

/-- A day of two bytes is at most 65,535 (R137, R174). -/
theorem parseClock_day {p : List Byte} {t : ClockTime} (h : parseClock p = some t) : t.day ≤ 65535 := by
  unfold parseClock at h
  split at h
  · next d1 d0 s2 s1 s0 =>
    cases h
    exact Nat.le_of_lt_succ (numberOf_two_lt d1 d0)
  · cases h

theorem hourOf_ok {b : Byte} {h : CutoverHour} (hb : hourOf b = some h) : h.Ok := by
  unfold hourOf at hb
  split at hb
  · cases hb
    trivial
  · obtain ⟨n, hn, rfl⟩ := Option.map_eq_some_iff.mp hb
    exact (byteIn_range hn).2

/-- What SET CUTOVER's field check lets through is in range (R139). -/
theorem settingOf_ok {b : Byte × Byte × Byte} {c : CutoverSetting} (h : settingOf b = some c) : c.hour.Ok ∧ c.minute ≤ 59 := by
  unfold settingOf at h
  split at h
  · next hh hm _ =>
    cases h
    exact ⟨hourOf_ok hh, (byteIn_range hm).2⟩
  · cases h

/-! ### Steps that leave the unit and begin no cut-over roll -/

/-- A step that leaves the Cut-over Unit and begins no cut-over roll. -/
structure CutoverKept (s t : State) : Prop where
  unit  : t.cutover = s.cutover
  rolls : ∀ f, (t.family f).op = .cutoverRoll → (s.family f).op = .cutoverRoll

theorem CutoverKept.refl (s : State) : CutoverKept s s := ⟨rfl, fun _ => id⟩

theorem CutoverKept.trans {s t u : State} (h : CutoverKept s t) (k : CutoverKept t u) : CutoverKept s u :=
  ⟨k.unit.trans h.unit, fun f hf => h.rolls f (k.rolls f hf)⟩

/-- The usual case: the unit and the families are the same. -/
theorem CutoverKept.of_eq {s t : State} (hu : t.cutover = s.cutover) (hk : t.keys.families = s.keys.families) :
    CutoverKept s t :=
  ⟨hu, fun f hf => by rwa [State.family, hk] at hf⟩

/-- A family written without a cut-over roll begun. -/
theorem setFamily_cutoverKept (s : State) {f : FamilyNo} {k : Family}
    (hk : k.op = .cutoverRoll → (s.family f).op = .cutoverRoll) : CutoverKept s (s.setFamily f k) := by
  refine ⟨rfl, fun g hg => ?_⟩
  by_cases hfg : f = g
  · subst hfg
    rw [State.family_setFamily] at hg
    exact hk hg
  · rwa [State.family_setFamily_ne s k hfg] at hg

/-- A family left with no operation (R29, R32, R37). -/
theorem settled_cutoverKept (s : State) (f : FamilyNo) (k : FamilyRecord) :
    CutoverKept s (s.setFamily f (Family.settled k)) :=
  setFamily_cutoverKept s (by simp [Family.settled])

theorem setLink_cutoverKept (s : State) (l : LinkId) (k : Link) : CutoverKept s (s.setLink l k) := .of_eq rfl rfl

theorem answer_cutoverKept (s : State) (l : LinkId) (corr : Byte) (code : Code) (reply : Reply := .bare) :
    CutoverKept s (s.answer l corr code reply) :=
  .of_eq rfl rfl

/-- No cut-over roll is in progress. -/
def State.NoRolls (s : State) : Prop := ∀ f, (s.family f).op ≠ .cutoverRoll

theorem State.NoRolls.kept {s t : State} (h : s.NoRolls) (k : CutoverKept s t) : t.NoRolls := fun f hf => h f (k.rolls f hf)

theorem State.NoRolls.of_families {s t : State} (h : s.NoRolls) (hk : t.keys.families = s.keys.families) : t.NoRolls :=
  fun f hf => h f (by rwa [State.family, hk] at hf)

/-- Without a cut-over roll only the unit is to be kept. -/
theorem State.NoRolls.cutoverOk {s : State} (h : s.NoRolls) (hu : s.cutover.Ok) : s.CutoverOk :=
  (cutoverOk_iff s).mpr ⟨hu, fun f hf => absurd hf (h f)⟩

section

variable {s t : State}

theorem State.CutoverOk.noRolls (h : s.CutoverOk) (hst : s.cutover.stage ≠ .rolling) : s.NoRolls :=
  fun f hf => hst (h.roll f hf).1

/-- In ROLLING no family but the next is under a cut-over roll (R145). -/
theorem State.CutoverOk.noRolls_of_next (h : s.CutoverOk) {f : FamilyNo} (hn : s.cutover.nextFamily = some f)
    (hop : (s.family f).op ≠ .cutoverRoll) : s.NoRolls := fun g hg => by
  obtain rfl : f = g := Option.some.inj (hn.symm.trans (h.roll g hg).2)
  exact hop hg

/-- The unit rewritten with its stage and next family as they were, no cut-over roll begun. -/
theorem State.CutoverOk.rewritten (h : s.CutoverOk) (hu : t.cutover.Ok) (hst : t.cutover.stage = s.cutover.stage)
    (hn : t.cutover.nextFamily = s.cutover.nextFamily)
    (hrolls : ∀ f, (t.family f).op = .cutoverRoll → (s.family f).op = .cutoverRoll) : t.CutoverOk := by
  refine (cutoverOk_iff t).mpr ⟨hu, fun f hf => ?_⟩
  rw [hst, hn]
  exact h.roll f (hrolls f hf)

theorem State.CutoverOk.kept (h : s.CutoverOk) (k : CutoverKept s t) : t.CutoverOk :=
  h.rewritten (k.unit ▸ h.unit) (congrArg _ k.unit) (congrArg _ k.unit) k.rolls

theorem State.CutoverOk.answer (h : s.CutoverOk) (l : LinkId) (corr : Byte) (code : Code) (reply : Reply := .bare) :
    (s.answer l corr code reply).CutoverOk :=
  h.kept (answer_cutoverKept s l corr code reply)

end

/-! ### Closes, offers, acknowledgements, transmitters: neither unit nor family is written -/

theorem requestClose_cutoverKept (s : State) (r : RouteNo) (why : CloseReason) : CutoverKept s (s.requestClose r why).1 := by
  rcases requestClose_cases s r why with ⟨p, -, e⟩ | ⟨-, -, e⟩ | ⟨-, -, -, e⟩ | ⟨-, -, -, e⟩ <;> rw [e]
  · exact .refl s
  · exact .of_eq rfl rfl
  · exact .of_eq rfl rfl
  · exact .of_eq rfl rfl

theorem askClose_cutoverKept (s : State) (r : RouteNo) : CutoverKept s (s.askClose r) := by
  unfold State.askClose
  split
  · exact requestClose_cutoverKept s r _
  · exact .refl s

theorem settleDeferred_cutoverKept (s : State) (r : RouteNo) : CutoverKept s (s.settleDeferred r) := by
  rcases settleDeferred_cases s r with e | ⟨p, -, -, e⟩ | ⟨p, -, -, -, e⟩ <;> rw [e]
  · exact .refl s
  · exact .of_eq rfl rfl
  · exact .of_eq rfl rfl

theorem dueClose_cutoverKept (s : State) (r : RouteNo) (last : Bool) : CutoverKept s (s.dueClose r last) := by
  rcases dueClose_cases s r last with e | ⟨why, -, e⟩ | e | e <;> rw [e]
  · exact .refl s
  · exact .of_eq rfl rfl
  · exact .of_eq rfl rfl
  · exact .of_eq rfl rfl

theorem offer_cutoverKept {s s' : State} {r : RouteNo} {c : RouteConfig} {corr : Byte} {m : Message}
    (ho : s.offer r c corr = some (s', m)) : CutoverKept s s' := by
  obtain ⟨-, -, -, hkeys, -, -, hcutover⟩ := offer_frame ho
  exact .of_eq hcutover (congrArg KeyUnit.families hkeys)

theorem takeDown_cutoverKept (s : State) (r : RouteNo) (why : DownReason) (cause : EndCause) :
    CutoverKept s (s.takeDown r why cause) := by
  cases hst : (s.route r).stream with
  | none =>
    rw [takeDown_closed why cause hst]
    exact .of_eq rfl rfl
  | some st =>
    rw [takeDown_open why cause hst]
    exact .of_eq rfl rfl

theorem acknowledge_cutoverKept (s : State) (r : RouteNo) (c : RouteConfig) (id : Identity) :
    CutoverKept s (s.acknowledge r c id) := by
  unfold State.acknowledge
  have hroute : CutoverKept s (s.setRoute r ((s.route r).unlisting c id)) := .of_eq rfl rfl
  refine hroute.trans ?_
  generalize s.setRoute r ((s.route r).unlisting c id) = b
  rcases ackAtQueues_cases b r id with e | ⟨n, rec, -, -, -, e⟩ | ⟨cl, -, -, e⟩ <;> rw [e]
  · exact .refl b
  · exact .of_eq rfl rfl
  · have hfree : CutoverKept b (b.setQueue r { b.queue r with buffer := none }) := .of_eq rfl rfl
    exact hfree.trans (settleDeferred_cutoverKept _ r)

theorem serveStream_cutoverKept (s : State) (l : LinkId) (r : RouteNo) : CutoverKept s (s.serveStream l r) := by
  unfold State.serveStream
  split
  · split
    · next ho =>
      refine (offer_cutoverKept ho).trans ?_
      unfold State.endByCount
      dsimp only
      split <;> exact .of_eq rfl rfl
    · exact .refl s
  · exact .refl s

theorem nextMessage_cutoverKept (s : State) (l : LinkId) : CutoverKept s (s.nextMessage l) := by
  unfold State.nextMessage
  split
  · exact setLink_cutoverKept s l _
  · split
    · exact serveStream_cutoverKept s l _
    · exact .refl s

theorem resetLink_cutoverKept (s : State) (l : LinkId) (rx : Receiver) : CutoverKept s (s.resetLink l rx) := by
  cases l <;> exact .of_eq rfl rfl

theorem voidRecord_cutover (s : State) (r : RouteNo) (till : Nat) (h : HistoryEntry) :
    (s.voidRecord r till h).cutover = s.cutover := by
  unfold State.voidRecord
  split
  · split <;> rfl
  · rfl

theorem withdraw_cutover (s : State) (q : Request) (h : HistoryEntry) : (s.withdraw q h).cutover = s.cutover := by
  simp [State.withdraw, voidRecord_cutover]

/-- A grant writes a family's record, not its operation (R24, R85). -/
theorem settleGrant_cutoverKept (s : State) (q : Request) (v : Verdict) : CutoverKept s (s.settleGrant q v) := by
  cases v with
  | refused code => exact answer_cutoverKept s _ _ _ _
  | duplicate h => exact answer_cutoverKept s _ _ _ _
  | withdraw h => exact .of_eq (withdraw_cutover s q h) (congrArg KeyUnit.families (withdraw_keys s q h))
  | wrap p =>
    have hfamily : CutoverKept s (s.setFamily p.family { s.family p.family with now := (s.family p.family).now.reserve }) :=
      setFamily_cutoverKept s id
    exact hfamily.trans (.of_eq rfl rfl)

/-! ### Acts that leave the unit and begin no cut-over roll

Each branch of such an act is a refusal, or an update of other blocks. -/

section

variable (l : LinkId) (corr b : Byte) (t : TerminalNo) (r : RouteNo) (c : RouteConfig) (s : State)

theorem wrapRequestAct_cutoverKept (kind : WrapKind) (i : LaneNo) (p : List Byte) :
    CutoverKept s (wrapRequestAct kind i corr p s) := by
  unfold wrapRequestAct
  repeat' split
  all_goals exact .of_eq rfl rfl

theorem laneHoldAct_cutoverKept (held : Bool) : CutoverKept s (laneHoldAct held l corr b s) := by
  unfold laneHoldAct
  repeat' split
  all_goals exact .of_eq rfl rfl

theorem enrolAct_cutoverKept (a : Place × Nat) : CutoverKept s (enrolAct l corr t a s) := by
  unfold enrolAct
  repeat' split
  all_goals exact .of_eq rfl rfl

theorem onEnrolled_cutoverKept {act : State → State} (hact : CutoverKept s (act s)) :
    CutoverKept s (onEnrolled l corr t act s) :=
  onEnrolled_keeps (CutoverKept s) (fun code => answer_cutoverKept s l corr code) hact

theorem releaseTerminalAct_cutoverKept : CutoverKept s (releaseTerminalAct l corr t s) := by
  refine onEnrolled_cutoverKept l corr t s ?_
  unfold releaseTerminalEnrolled
  split <;> exact .of_eq rfl rfl

theorem moveAct_cutoverKept (p : Place) : CutoverKept s (moveAct l corr t p s) := by
  refine onEnrolled_cutoverKept l corr t s ?_
  unfold moveEnrolled
  repeat' split
  all_goals exact .of_eq rfl rfl

theorem terminalQueryAct_cutoverKept : CutoverKept s (terminalQueryAct l corr b s) := by
  unfold terminalQueryAct
  split <;> exact answer_cutoverKept s _ _ _ _

theorem familyQueryAct_cutoverKept : CutoverKept s (familyQueryAct l corr b s) := by
  unfold familyQueryAct
  split <;> exact answer_cutoverKept s _ _ _ _

theorem routeQueryAct_cutoverKept : CutoverKept s (routeQueryAct l corr b s) := by
  unfold routeQueryAct
  repeat' split
  all_goals exact answer_cutoverKept s _ _ _ _

theorem setCeilingAct_cutoverKept (digits : List Byte) : CutoverKept s (setCeilingAct l corr b digits s) := by
  unfold setCeilingAct
  repeat' split
  all_goals exact .of_eq rfl rfl

theorem faultReadAct_cutoverKept : CutoverKept s (faultReadAct l corr s) := by
  unfold faultReadAct
  dsimp only
  split <;> exact .of_eq rfl rfl

theorem routeUpAct_cutoverKept : CutoverKept s (routeUpAct l corr r c s) := by
  unfold routeUpAct
  dsimp only
  split <;> exact .of_eq rfl rfl

theorem routeDownAct_cutoverKept : CutoverKept s (routeDownAct l corr r c s) := by
  unfold routeDownAct
  dsimp only
  split
  · exact (takeDown_cutoverKept s r .command .routeDown).trans (answer_cutoverKept _ _ _ _)
  · exact .of_eq rfl rfl

theorem pullOneAct_cutoverKept : CutoverKept s (pullOneAct l corr r c s) := by
  unfold pullOneAct
  split
  · split
    · split
      · exact answer_cutoverKept s _ _ _
      · next ho => exact (offer_cutoverKept ho).trans (setLink_cutoverKept _ l _)
    · exact answer_cutoverKept s _ _ _
  · exact answer_cutoverKept s _ _ _

theorem pullBlockAct_cutoverKept (n : Byte) : CutoverKept s (pullBlockAct l corr n r c s) := by
  unfold pullBlockAct
  split
  · have hrun := offerRun_keeps (CutoverKept s) (r := r) (c := c) (corr := corr)
      (fun _ _ _ hb _ ho => hb.trans (offer_cutoverKept ho)) (blockCount n.toNat) s (.refl s)
    exact hrun.trans (setLink_cutoverKept _ l _)
  · exact answer_cutoverKept s _ _ _

theorem streamOpenAct_cutoverKept (n renew : Byte) : CutoverKept s (streamOpenAct l corr n renew r c s) := by
  unfold streamOpenAct
  repeat' split
  all_goals exact .of_eq rfl rfl

theorem ackOneAct_cutoverKept (batch sq : Nat) : CutoverKept s (ackOneAct l corr batch sq r c s) := by
  unfold ackOneAct
  split
  · exact (acknowledge_cutoverKept s r c _).trans (answer_cutoverKept _ _ _ _ _)
  · exact answer_cutoverKept s _ _ _

theorem ackOldestAct_cutoverKept : CutoverKept s (ackOldestAct l corr r c s) := by
  unfold ackOldestAct
  split
  · exact answer_cutoverKept s _ _ _
  · exact (acknowledge_cutoverKept s r c _).trans (answer_cutoverKept _ _ _ _ _)

theorem ackThroughAct_cutoverKept (batch sq : Nat) : CutoverKept s (ackThroughAct l corr batch sq r c s) := by
  have hacked := acknowledgeAll_keeps (CutoverKept s) (r := r) (c := c)
    (fun _ id hb => hb.trans (acknowledge_cutoverKept _ r c id)) (s.covered r batch sq) s (.refl s)
  exact hacked.trans (answer_cutoverKept _ _ _ _ _)

theorem closeBatchAct_cutoverKept : CutoverKept s (closeBatchAct l corr b s) := by
  unfold closeBatchAct
  split
  · split
    · exact answer_cutoverKept s _ _ _
    · split
      · split
        · exact (requestClose_cutoverKept s _ .manual).trans (answer_cutoverKept _ _ _ _ _)
        · exact answer_cutoverKept s _ _ _
      · exact answer_cutoverKept s _ _ _
  · exact answer_cutoverKept s _ _ _

theorem routeDefineAct_cutoverKept (a : DefineBytes) : CutoverKept s (routeDefineAct l corr a s) := by
  unfold routeDefineAct routeDefineStaged
  repeat' split
  all_goals exact .of_eq rfl rfl

theorem setupEndAct_cutoverKept : CutoverKept s (setupEndAct l corr s) := by
  unfold setupEndAct
  repeat' split
  all_goals exact .of_eq rfl rfl

/-- A load begun is no cut-over roll (R28). -/
theorem keyLoadFamily_cutoverKept (f : FamilyNo) (w : LoadWork) : CutoverKept s (keyLoadFamily l corr f w s) := by
  unfold keyLoadFamily
  split
  · exact answer_cutoverKept s _ _ _
  · split
    · have hbegun : CutoverKept s (s.setFamily f ((s.family f).begin .load .loading)) := setFamily_cutoverKept s nofun
      exact hbegun.trans (.of_eq rfl rfl)
    · exact answer_cutoverKept s _ _ _

theorem keyLoadAct_cutoverKept (a : LoadBytes) : CutoverKept s (keyLoadAct l corr a s) := by
  unfold keyLoadAct
  split
  · exact answer_cutoverKept s _ _ _
  · split
    · exact answer_cutoverKept s _ _ _
    · exact keyLoadFamily_cutoverKept l corr s _ _

/-- A roll from ROLL FAMILY is no cut-over roll (R31). -/
theorem rollFamilyOn_cutoverKept (f : FamilyNo) : CutoverKept s (rollFamilyOn l corr f s) := by
  unfold rollFamilyOn
  dsimp only
  split
  · exact answer_cutoverKept s _ _ _
  · split
    · exact answer_cutoverKept s _ _ _
    · split
      · have hbegun : CutoverKept s (s.setFamily f ((s.family f).begin .gatewayRoll .rolling)) := setFamily_cutoverKept s nofun
        exact hbegun.trans (.of_eq rfl rfl)
      · exact answer_cutoverKept s _ _ _

theorem rollFamilyAct_cutoverKept : CutoverKept s (rollFamilyAct l corr b s) := by
  unfold rollFamilyAct
  split
  · split
    · exact answer_cutoverKept s _ _ _
    · split
      · exact rollFamilyOn_cutoverKept l corr s _
      · exact answer_cutoverKept s _ _ _
  · exact answer_cutoverKept s _ _ _

/-- A family retired keeps its operation (R35). -/
theorem retireFamilyOn_cutoverKept (f : FamilyNo) : CutoverKept s (retireFamilyOn l corr f s) := by
  unfold retireFamilyOn
  dsimp only
  split
  · exact answer_cutoverKept s _ _ _
  · split
    · exact answer_cutoverKept s _ _ _
    · split
      · exact answer_cutoverKept s _ _ _
      · have hretired : CutoverKept s (s.setFamily f { s.family f with now := (s.family f).now.retire }) :=
          setFamily_cutoverKept s id
        exact hretired.trans (answer_cutoverKept _ _ _ _)

theorem retireFamilyAct_cutoverKept : CutoverKept s (retireFamilyAct l corr b s) := by
  unfold retireFamilyAct
  split
  · exact answer_cutoverKept s _ _ _
  · split
    · exact answer_cutoverKept s _ _ _
    · exact retireFamilyOn_cutoverKept l corr s _

end

/-! ### Acts on the clock, the setting and the setup sequence (R138, R139, R163, R173) -/

section

variable {s : State} (hs : s.CutoverOk) (l : LinkId) (corr : Byte)
include hs

theorem setClockAct_cutoverOk {t : ClockTime} (ht : t.day ≤ 65535) : (setClockAct l corr t s).CutoverOk := by
  unfold setClockAct
  split
  · exact hs.answer _ _ _
  · split
    · next hsec => exact hs.rewritten (hs.unit.setTo ⟨hsec, ht⟩) rfl rfl fun _ => id
    · exact hs.answer _ _ _

theorem setCutoverAct_cutoverOk (a : Byte × Byte × Byte) : (setCutoverAct l corr a s).CutoverOk := by
  unfold setCutoverAct
  split
  · split
    · exact hs.answer _ _ _
    · next hset =>
      have hquiet := hs.unit.withoutNear
      exact hs.rewritten (hquiet.rewritten hquiet.clock (settingOf_ok hset) rfl rfl rfl rfl hquiet.near) rfl rfl fun _ => id
  · exact hs.answer _ _ _

theorem setupBeginAct_cutoverOk (a : Byte × Byte) : (setupBeginAct l corr a s).CutoverOk := by
  unfold setupBeginAct
  split
  · exact State.CutoverOk.answer (hs.kept (t := s.abandon) (.of_eq rfl rfl)) _ _ _
  · split
    · exact hs.answer _ _ _
    · split
      · exact hs.answer _ _ _
      · have hquiet := hs.unit.withoutNear
        exact hs.rewritten (hquiet.rewritten hquiet.clock hquiet.setting rfl rfl rfl rfl hquiet.near) rfl rfl fun _ => id

end

/-- Every family empty: no cut-over roll (R38). -/
theorem noRolls_of_emptyKeys {s : State} (h : s.keys = KeyUnit.empty) : s.NoRolls := by
  intro f
  have hf : s.family f = Family.empty := by simp [State.family, h, KeyUnit.empty]
  rw [hf]
  nofun

theorem eraseAct_cutoverOk (l : LinkId) (corr : Byte) (s : State) : (eraseAct l corr s).CutoverOk :=
  (noRolls_of_emptyKeys rfl).cutoverOk CutoverUnit.initial_ok

/-! ### Events that leave the unit and begin no cut-over roll -/

theorem frameArrives_cutoverKept (l : LinkId) (body : List Byte) (s : State) :
    (∃ t, frameArrives l body s = .gone t ∧ CutoverKept s t) ∨ (∃ t, frameArrives l body s = .taken t ∧ CutoverKept s t) :=
  frameArrives_keeps (CutoverKept s) (.refl s) (fun b k hb => hb.trans (setLink_cutoverKept b l k)) body

section

variable (s : State)

theorem execLinkReset_cutoverKept (l : LinkId) (corr : Byte) (p : List Byte) :
    ∃ t, execLinkReset l corr p s = .next t ∧ CutoverKept s t := by
  refine ⟨_, rfl, ?_⟩
  split
  · split
    · rcases frameArrives_cutoverKept l (0x0F#8 :: corr :: p) s with ⟨t, he, hk⟩ | ⟨t, he, hk⟩ <;> rw [he] <;> exact hk
    · exact (resetLink_cutoverKept s l .hunting).trans (answer_cutoverKept _ _ _ _)
  · exact .refl s

theorem execFrameBad_cutoverKept (l : LinkId) (chars : List LineChar) :
    ∃ t, execFrameBad l chars s = .next t ∧ CutoverKept s t := by
  refine ⟨_, rfl, ?_⟩
  repeat' split
  all_goals exact .of_eq rfl rfl

theorem execLineBreak_cutoverKept (l : LinkId) : ∃ t, execLineBreak l s = .next t ∧ CutoverKept s t := by
  have hlow := setLink_cutoverKept s l { s.link l with low := true }
  refine ⟨_, rfl, ?_⟩
  dsimp only
  split
  · exact hlow.trans (resetLink_cutoverKept _ l .inBreak)
  · exact hlow

theorem execUnknownKind_cutoverKept (l : LinkId) (corr kind : Byte) (p : List Byte) :
    ∃ t, execUnknownKind l corr kind p s = .next t ∧ CutoverKept s t := by
  refine ⟨_, rfl, ?_⟩
  split
  · exact .refl s
  · rcases frameArrives_cutoverKept l (kind :: corr :: p) s with ⟨t, he, hk⟩ | ⟨t, he, hk⟩ <;> rw [he]
    · exact hk
    · exact hk.trans (answer_cutoverKept _ _ _ _)

theorem execGrant_cutoverKept : ∃ t, execGrant s = .next t ∧ CutoverKept s t := by
  refine ⟨_, rfl, ?_⟩
  split
  · split
    · exact .refl s
    · next i _ =>
      split
      · exact .refl s
      · have htaken : CutoverKept s { s with intake := s.intake.granted i } := .of_eq rfl rfl
        exact htaken.trans (settleGrant_cutoverKept _ _ _)
  · exact .refl s

theorem execCompletion_cutoverKept : ∃ t, execCompletion s = .next t ∧ CutoverKept s t := by
  refine ⟨_, rfl, ?_⟩
  split
  · split
    · next k w _ =>
      have hwrapped : CutoverKept s (s.completeWrap k w) :=
        .of_eq (completeWrap_cutover s k w) (congrArg KeyUnit.families (completeWrap_keys s k w))
      exact hwrapped.trans (dueClose_cutoverKept _ _ _)
    · exact .refl s
  · exact .refl s

theorem execStreamOffer_cutoverKept (l : LinkId) : ∃ t, execStreamOffer l s = .next t ∧ CutoverKept s t := by
  refine ⟨_, rfl, ?_⟩
  split
  · exact nextMessage_cutoverKept s l
  · exact .refl s

theorem execTransmitComplete_cutoverKept (l : LinkId) : ∃ t, execTransmitComplete l s = .next t ∧ CutoverKept s t := by
  refine ⟨_, rfl, ?_⟩
  split
  · exact (setLink_cutoverKept s l _).trans (nextMessage_cutoverKept _ l)
  · exact .refl s

theorem execAckTimerExpiry_cutoverKept (r : RouteNo) : ∃ t, execAckTimerExpiry r s = .next t ∧ CutoverKept s t := by
  refine ⟨_, rfl, ?_⟩
  split
  · exact (takeDown_cutoverKept s r .timeout .timeout).trans (.of_eq rfl rfl)
  · exact .refl s

theorem execDeferredClose_cutoverKept (r : RouteNo) : ∃ t, execDeferredClose r s = .next t ∧ CutoverKept s t := by
  refine ⟨_, rfl, ?_⟩
  split
  · exact settleDeferred_cutoverKept s r
  · exact .refl s

theorem execResetLine_cutoverKept : ∃ t, execResetLine s = .next t ∧ CutoverKept s t := by
  refine ⟨_, rfl, ?_⟩
  split <;> exact .of_eq rfl rfl

/-- The end of a load leaves the family with no operation (R29). -/
theorem execLoadCompletion_cutoverKept (f : FamilyNo) : ∃ t, execLoadCompletion f s = .next t ∧ CutoverKept s t := by
  refine ⟨_, rfl, ?_⟩
  have hload : CutoverKept s (s.setLoad f none) := .of_eq rfl rfl
  have hended : ∀ k, CutoverKept s ((s.setLoad f none).setFamily f (Family.settled k)) := fun k =>
    hload.trans (settled_cutoverKept _ f k)
  split
  · split
    · unfold State.finishLoad
      dsimp only
      split
      · exact (hended _).trans (.of_eq rfl rfl)
      · exact (hended _).trans (.of_eq rfl rfl)
    · exact .refl s
  · exact .refl s

end

/-! ### The second, the warning, the match and the procedure (R137 to R145) -/

/-- The end of a roll leaves the family with no operation (R32). -/
theorem finishRoll_cutoverKept (s : State) (f : FamilyNo) : CutoverKept s (s.finishRoll f) :=
  (settled_cutoverKept s f _).trans (.of_eq rfl rfl)

section

variable {s : State} (hs : s.CutoverOk)
include hs

theorem execTick_cutoverOk : ∃ t, execTick s = .next t ∧ t.CutoverOk := by
  refine ⟨_, rfl, ?_⟩
  dsimp only
  split
  · exact hs.rewritten (tickDue_ok hs.unit) rfl rfl fun _ => id
  · exact hs.rewritten
      (hs.unit.rewritten (nextSecond_range hs.clock.2) hs.setting rfl rfl rfl rfl hs.near) rfl rfl fun _ => id

theorem execNearWarning_cutoverOk : ∃ t, execNearWarning s = .next t ∧ t.CutoverOk := by
  refine ⟨_, rfl, ?_⟩
  split
  · next hdue =>
    have hidle := hs.near (Or.inr ((Bool.and_eq_true _ _).mp hdue).2)
    exact hs.rewritten (hs.unit.rewritten hs.clock hs.setting rfl rfl rfl rfl fun _ => hidle) rfl rfl fun _ => id
  · exact hs

theorem execCutoverMatch_cutoverOk : ∃ t, execCutoverMatch s = .next t ∧ t.CutoverOk := by
  refine ⟨_, rfl, ?_⟩
  split
  · split
    · exact hs
    · next at_ _ =>
      split
      · next hopen =>
        have hno := hs.noRolls (by simp [hopen.2])
        exact State.NoRolls.cutoverOk (hno.of_families rfl) (hs.unit.matched at_ s.engine.isIdle)
      · exact hs.rewritten (hs.unit.rewritten hs.clock hs.setting rfl rfl rfl rfl hs.near) rfl rfl fun _ => id
  · exact hs

/-- WAITING and CLOSING ask the same of the unit's fields, and no cut-over roll is in progress in either (R142). -/
theorem execCutoverClosingStart_cutoverOk : ∃ t, execCutoverClosingStart s = .next t ∧ t.CutoverOk := by
  refine ⟨_, rfl, ?_⟩
  split
  · next hon =>
    simp only [Bool.and_eq_true, beq_iff_eq] at hon
    obtain ⟨⟨-, hwait⟩, -⟩ := hon
    have hno := hs.noRolls (by simp [hwait])
    refine State.NoRolls.cutoverOk (hno.of_families rfl)
      ⟨hs.clock, hs.setting, nofun, fun _ => hs.closing (Or.inl hwait), nofun, fun hn => ?_⟩
    exact absurd hn (hs.unit.not_near (by simp [hwait]))
  · exact hs

theorem execCutoverRouteClose_cutoverOk : ∃ t, execCutoverRouteClose s = .next t ∧ t.CutoverOk := by
  refine ⟨_, rfl, ?_⟩
  split
  · next hon =>
    simp only [Bool.and_eq_true, beq_iff_eq] at hon
    obtain ⟨-, hclosing⟩ := hon
    have hno := hs.noRolls (by simp [hclosing])
    split
    · next r _ =>
      have hasked := askClose_cutoverKept s r
      have hunit : ((s.askClose r).cutover.routeDone (s.routeAfter r)).Ok := by
        rw [hasked.unit]
        exact hs.unit.routeDone hclosing _
      exact State.NoRolls.cutoverOk ((hno.kept hasked).of_families rfl) hunit
    · exact State.NoRolls.cutoverOk (hno.of_families rfl) (hs.unit.routeDone hclosing none)
  · exact hs

/-- With the next family dealt with and under no roll, the procedure moves on (R145). -/
theorem familyDone_cutoverOk (hno : s.NoRolls) (hst : s.cutover.stage = .rolling) (f : FamilyNo) :
    (s.familyDone f).CutoverOk :=
  State.NoRolls.cutoverOk (hno.of_families rfl) (hs.unit.familyDone hst f)

/-- A family's turn: its roll begins, or it is dealt with at once (R33, R145). -/
theorem rollTurn_cutoverOk (hst : s.cutover.stage = .rolling) {f : FamilyNo} (hn : s.cutover.nextFamily = some f)
    (hop : (s.family f).op ≠ .cutoverRoll) : (s.rollTurn f).CutoverOk := by
  have hno := hs.noRolls_of_next hn hop
  unfold State.rollTurn
  dsimp only
  split
  · split
    · refine (cutoverOk_iff _).mpr ⟨hs.unit, fun g hg => ⟨hst, ?_⟩⟩
      by_cases hfg : f = g
      · exact hfg ▸ hn
      · rw [State.family_setFamily_ne s _ hfg] at hg
        exact absurd hg (hno g)
    · have hlogged : (s.logFault .rollRefused f.val).CutoverOk := hs.kept (.of_eq rfl rfl)
      exact familyDone_cutoverOk hlogged (hno.of_families rfl) hst f
  · exact familyDone_cutoverOk hs hno hst f

theorem execCutoverFamilyRoll_cutoverOk : ∃ t, execCutoverFamilyRoll s = .next t ∧ t.CutoverOk := by
  refine ⟨_, rfl, ?_⟩
  split
  · next hon =>
    simp only [Bool.and_eq_true, beq_iff_eq] at hon
    obtain ⟨-, hst⟩ := hon
    split
    · next f hn =>
      split
      · exact hs
      · next hop => exact rollTurn_cutoverOk hs hst hn hop
    · exact hs
  · exact hs

/-- The cut-over roll that ends was the only one (R145). -/
theorem finishRoll_noRolls {f : FamilyNo} (hop : (s.family f).op = .cutoverRoll) : (s.finishRoll f).NoRolls := by
  have hended : (s.finishRoll f).family f = Family.settled (s.family f).now.rolled := State.family_setFamily s f _
  have hrolled : (s.finishRoll f).CutoverOk := hs.kept (finishRoll_cutoverKept s f)
  refine hrolled.noRolls_of_next (hs.roll f hop).2 ?_
  rw [hended]
  nofun

theorem execRollCompletion_cutoverOk (f : FamilyNo) : ∃ t, execRollCompletion f s = .next t ∧ t.CutoverOk := by
  have hrolled : (s.finishRoll f).CutoverOk := hs.kept (finishRoll_cutoverKept s f)
  refine ⟨_, rfl, ?_⟩
  split
  · split
    · exact hrolled.kept (.of_eq rfl rfl)
    · next hop => exact familyDone_cutoverOk hrolled (finishRoll_noRolls hs hop) (hs.roll f hop).1 f
    · exact hs
  · exact hs

/-! ### Supply and retention (R137, R142, R147, R171 to R173) -/

theorem execPowerLoss_cutoverOk : ∃ t, execPowerLoss s = .next t ∧ t.CutoverOk := by
  refine ⟨_, rfl, ?_⟩
  split
  · exact hs
  · exact hs.rewritten hs.unit.lapse rfl rfl fun _ => id

theorem execStoreLost_cutoverOk (straps : BitVec 6) : ∃ t, execStoreLost straps s = .next t ∧ t.CutoverOk := by
  refine ⟨_, rfl, ?_⟩
  split
  · exact (noRolls_of_emptyKeys rfl).cutoverOk CutoverUnit.initial_ok
  · exact hs

end

/-- A restore has undone or completed every operation on a family (R37, R147). -/
theorem warmRestore_noRolls (s : State) (straps : BitVec 6) : (s.warmRestore straps).NoRolls := by
  have hmid : ∀ f, ((restoreMid s straps).family f).op ≠ .cutoverRoll := by
    intro f
    rw [restoreMid_family, undoneFamily]
    split
    · next hop => simp [hop]
    · nofun
  intro f
  rw [warmRestore_mid]
  by_cases hst : (restoreMid s straps).cutover.stage = .idle
  · rw [resume_idle _ hst]
    exact hmid f
  · rw [resume_family _ hst, resumeRolling_family]
    split
    · split
      · nofun
      · exact hmid f
    · exact hmid f

/-- A procedure that was under way has ended with its fields absent (R145). -/
theorem resume_done {m : State} (hst : m.cutover.stage ≠ .idle) :
    m.resume.cutover.matchTime = none ∧ m.resume.cutover.nextRoute = none ∧ m.resume.cutover.nextFamily = none := by
  unfold State.resume
  split
  · next h => exact absurd h hst
  · exact ⟨rfl, rfl, rfl⟩
  · exact ⟨rfl, rfl, rfl⟩

/-- Clock and setting are the same after a restore (R137, R142). -/
theorem resumed_clock_setting (s : State) (straps : BitVec 6) :
    (restoreMid s straps).resume.cutover.clock = s.cutover.clock ∧
    (restoreMid s straps).resume.cutover.setting = s.cutover.setting := by
  have hresumed := resume_start (restoreMid s straps)
  have hundone := undoAll_start (restoreSettled s straps)
  have hmid : (restoreMid s straps).cutover = (restoreSettled s straps).undoAll.cutover := by
    rw [restoreMid_eq, (restoreTail_keys _).2.1]
  obtain ⟨-, -, -, -, -, hsettled⟩ := restoreSettled_facts s straps
  rw [hresumed.clock, hresumed.setting, hmid, hundone.clock, hundone.setting, hsettled]
  exact ⟨rfl, rfl⟩

/-- A restore leaves the unit IDLE, with no more of it changed than the procedure it ends (R142, R147). -/
theorem warmRestore_cutoverOk {s : State} (hs : s.CutoverOk) (straps : BitVec 6) : (s.warmRestore straps).CutoverOk := by
  obtain ⟨hclock, hsetting⟩ := resumed_clock_setting s straps
  refine (warmRestore_noRolls s straps).cutoverOk ?_
  rw [warmRestore_mid]
  refine CutoverUnit.ok_of_idle (resume_stage (restoreMid s straps)) (by rw [hclock]; exact hs.clock)
    (by rw [hsetting]; exact hs.setting) ?_
  by_cases hst : s.cutover.stage = .idle
  · obtain ⟨-, -, -, -, -, hsettled⟩ := restoreSettled_facts s straps
    obtain ⟨hmid, -⟩ := restoreMid_next s straps (hs.noRolls (by simp [hst]))
    rw [resume_idle _ (restoreMid_stage s straps .idle hst), hmid, hsettled]
    exact hs.idle hst
  · exact resume_done (by rwa [restoreMid_stage s straps _ rfl])

theorem execWarmRestore_cutoverOk {s : State} (hs : s.CutoverOk) (straps : BitVec 6) :
    ∃ t, execWarmRestore straps s = .next t ∧ t.CutoverOk := by
  refine ⟨_, rfl, ?_⟩
  split
  · exact warmRestore_cutoverOk hs straps
  · exact hs

/-! ### Every step -/

section

variable {l : LinkId} {corr b : Byte} {p : List Byte} {s : State} (hs : s.CutoverOk)
include hs

/-- What the part does with a request before its own act keeps the invariant; so the request does where its act does. -/
theorem request_cutoverOk {α : Type} {kind : Byte} {ring : Nat} {parse : List Byte → Option α}
    {spoil : State → State} {act : α → State → State} (hspoil : ∀ u, CutoverKept u (spoil u))
    (hact : ∀ a u, parse p = some a → u.CutoverOk → (act a u).CutoverOk) :
    (request kind ring parse spoil l corr p act s).CutoverOk :=
  request_keeps State.CutoverOk hs (fun h => h.kept (setLink_cutoverKept _ l _))
    (fun h => h.kept (setLink_cutoverKept _ l _)) (fun u h _ => h.kept (setLink_cutoverKept u l _))
    (fun _ code h _ => h.answer l corr code) (fun u h _ => (h.kept (hspoil u)).answer l corr _)
    (fun a u hp _ h _ _ _ => hact a u hp h)

/-- A request whose act leaves the unit and begins no cut-over roll. -/
theorem plainRequest_cutoverOk {α : Type} {kind : Byte} {ring : Nat} {parse : List Byte → Option α}
    {spoil : State → State} {act : α → State → State} (hspoil : ∀ u, CutoverKept u (spoil u))
    (hact : ∀ a u, CutoverKept u (act a u)) : (request kind ring parse spoil l corr p act s).CutoverOk :=
  request_cutoverOk hs hspoil fun a u _ hu => hu.kept (hact a u)

theorem laneRequest_cutoverOk {kind : Byte} {act : LaneNo → State → State} (hact : ∀ i u, CutoverKept u (act i u)) :
    (laneRequest kind l corr p act s).CutoverOk :=
  laneRequest_keeps State.CutoverOk hs (fun h => h.kept (setLink_cutoverKept _ l _))
    (fun h => h.kept (setLink_cutoverKept _ l _)) (fun u h _ => h.kept (setLink_cutoverKept u l _))
    (fun _ code h _ => h.answer l corr code) (fun i u _ h _ _ _ => h.kept (hact i u))

theorem routeRequest_cutoverOk {α : Type} {kind : Byte} {parse : List Byte → Option α} {route : α → Byte}
    {act : α → RouteNo → RouteConfig → State → State} (hact : ∀ a r c u, CutoverKept u (act a r c u)) :
    (request kind 1 parse id l corr p (fun a => onRoute l corr (route a) (act a)) s).CutoverOk :=
  plainRequest_cutoverOk hs CutoverKept.refl fun a u =>
    onRoute_keeps (CutoverKept u) (fun code => answer_cutoverKept u l corr code) fun r c _ _ => hact a r c u

theorem terminalRequest_cutoverOk {α β : Type} {kind : Byte} {parse : List Byte → Option α} {terminal : α → Byte}
    {fields : α → Option β} {act : TerminalNo → β → State → State} (hact : ∀ t a u, CutoverKept u (act t a u)) :
    (request kind 1 parse id l corr p (fun a => onTerminal l corr (terminal a) (fields a) act) s).CutoverOk :=
  plainRequest_cutoverOk hs CutoverKept.refl fun _ u =>
    onTerminal_keeps (CutoverKept u) (fun code => answer_cutoverKept u l corr code) fun t a _ => hact t a u

/-- An event that leaves the unit and begins no cut-over roll keeps the invariant. -/
theorem cutoverOk_of_kept {o : Host.Outcome State Fault Refusal} (h : ∃ t, o = .next t ∧ CutoverKept s t) :
    ∃ t, o = .next t ∧ t.CutoverOk := by
  obtain ⟨t, he, hk⟩ := h
  exact ⟨t, he, hs.kept hk⟩

end

/-- Every command answers next and keeps the Cut-over Unit in order. -/
theorem exec_cutoverOk (c : Instr) {s : State} (hs : s.CutoverOk) : ∃ t, exec c s = .next t ∧ t.CutoverOk := by
  have habandon : ∀ u : State, CutoverKept u u.abandon := fun _ => .of_eq rfl rfl
  cases c with
  | auth l corr p => exact ⟨_, rfl, laneRequest_cutoverOk hs fun i u => wrapRequestAct_cutoverKept corr u .auth i p⟩
  | refund l corr p => exact ⟨_, rfl, laneRequest_cutoverOk hs fun i u => wrapRequestAct_cutoverKept corr u .refund i p⟩
  | reversal l corr p =>
    exact ⟨_, rfl, laneRequest_cutoverOk hs fun i u => wrapRequestAct_cutoverKept corr u .reversal i p⟩
  | laneStatus l corr p => exact ⟨_, rfl, laneRequest_cutoverOk hs fun _ u => answer_cutoverKept u _ _ _ _⟩
  | linkReset l corr p => exact cutoverOk_of_kept hs (execLinkReset_cutoverKept s l corr p)
  | frameBad l chars => exact cutoverOk_of_kept hs (execFrameBad_cutoverKept s l chars)
  | lineBreak l => exact cutoverOk_of_kept hs (execLineBreak_cutoverKept s l)
  | lineBreakEnd l => exact ⟨_, rfl, hs.kept (setLink_cutoverKept s l _)⟩
  | grant => exact cutoverOk_of_kept hs (execGrant_cutoverKept s)
  | completion => exact cutoverOk_of_kept hs (execCompletion_cutoverKept s)
  | enrol l corr p => exact ⟨_, rfl, terminalRequest_cutoverOk hs fun t a u => enrolAct_cutoverKept l corr t u a⟩
  | holdTerminal l corr p =>
    exact ⟨_, rfl, terminalRequest_cutoverOk hs fun t _ u => onEnrolled_cutoverKept l corr t u (.of_eq rfl rfl)⟩
  | releaseTerminal l corr p =>
    exact ⟨_, rfl, terminalRequest_cutoverOk hs fun t _ u => releaseTerminalAct_cutoverKept l corr t u⟩
  | move l corr p => exact ⟨_, rfl, terminalRequest_cutoverOk hs fun t a u => moveAct_cutoverKept l corr t u a⟩
  | retire l corr p =>
    exact ⟨_, rfl, terminalRequest_cutoverOk hs fun t _ u => onEnrolled_cutoverKept l corr t u (.of_eq rfl rfl)⟩
  | setFloor l corr p =>
    exact ⟨_, rfl, terminalRequest_cutoverOk hs fun t _ u => onEnrolled_cutoverKept l corr t u (.of_eq rfl rfl)⟩
  | terminalQuery l corr p =>
    exact ⟨_, rfl, plainRequest_cutoverOk hs CutoverKept.refl (terminalQueryAct_cutoverKept l corr)⟩
  | keyLoad l corr p =>
    exact ⟨_, rfl, plainRequest_cutoverOk hs CutoverKept.refl fun a u => keyLoadAct_cutoverKept l corr u a⟩
  | loadCompletion f => exact cutoverOk_of_kept hs (execLoadCompletion_cutoverKept s f)
  | rollFamily l corr p => exact ⟨_, rfl, plainRequest_cutoverOk hs CutoverKept.refl (rollFamilyAct_cutoverKept l corr)⟩
  | rollCompletion f => exact execRollCompletion_cutoverOk hs f
  | retireFamily l corr p =>
    exact ⟨_, rfl, plainRequest_cutoverOk hs CutoverKept.refl (retireFamilyAct_cutoverKept l corr)⟩
  | familyQuery l corr p => exact ⟨_, rfl, plainRequest_cutoverOk hs CutoverKept.refl (familyQueryAct_cutoverKept l corr)⟩
  | setCeiling l corr p =>
    exact ⟨_, rfl, plainRequest_cutoverOk hs CutoverKept.refl fun a u => setCeilingAct_cutoverKept l corr a.1 u a.2⟩
  | holdLane l corr p =>
    exact ⟨_, rfl, plainRequest_cutoverOk hs CutoverKept.refl fun a u => laneHoldAct_cutoverKept l corr a u true⟩
  | releaseLane l corr p =>
    exact ⟨_, rfl, plainRequest_cutoverOk hs CutoverKept.refl fun a u => laneHoldAct_cutoverKept l corr a u false⟩
  | routeUp l corr p => exact ⟨_, rfl, routeRequest_cutoverOk hs fun _ => routeUpAct_cutoverKept l corr⟩
  | routeDown l corr p => exact ⟨_, rfl, routeRequest_cutoverOk hs fun _ => routeDownAct_cutoverKept l corr⟩
  | pullOne l corr p => exact ⟨_, rfl, routeRequest_cutoverOk hs fun _ => pullOneAct_cutoverKept l corr⟩
  | pullBlock l corr p =>
    exact ⟨_, rfl, routeRequest_cutoverOk hs fun a r c u => pullBlockAct_cutoverKept l corr r c u a.2⟩
  | streamOpen l corr p =>
    exact ⟨_, rfl, routeRequest_cutoverOk hs fun a r c u => streamOpenAct_cutoverKept l corr r c u a.2.1 a.2.2⟩
  | streamClose l corr p => exact ⟨_, rfl, routeRequest_cutoverOk hs fun _ _ _ _ => .of_eq rfl rfl⟩
  | streamOffer l => exact cutoverOk_of_kept hs (execStreamOffer_cutoverKept s l)
  | transmitComplete l => exact cutoverOk_of_kept hs (execTransmitComplete_cutoverKept s l)
  | ackOne l corr p =>
    exact ⟨_, rfl, routeRequest_cutoverOk hs fun a r c u => ackOneAct_cutoverKept l corr r c u a.2.1 a.2.2⟩
  | ackOldest l corr p => exact ⟨_, rfl, routeRequest_cutoverOk hs fun _ => ackOldestAct_cutoverKept l corr⟩
  | ackThrough l corr p =>
    exact ⟨_, rfl, routeRequest_cutoverOk hs fun a r c u => ackThroughAct_cutoverKept l corr r c u a.2.1 a.2.2⟩
  | ackTimerExpiry r => exact cutoverOk_of_kept hs (execAckTimerExpiry_cutoverKept s r)
  | tick => exact execTick_cutoverOk hs
  | nearWarning => exact execNearWarning_cutoverOk hs
  | cutoverMatch => exact execCutoverMatch_cutoverOk hs
  | cutoverClosingStart => exact execCutoverClosingStart_cutoverOk hs
  | cutoverRouteClose => exact execCutoverRouteClose_cutoverOk hs
  | cutoverFamilyRoll => exact execCutoverFamilyRoll_cutoverOk hs
  | setClock l corr p =>
    exact ⟨_, rfl, request_cutoverOk hs CutoverKept.refl fun _ _ hp hu =>
      setClockAct_cutoverOk hu l corr (parseClock_day hp)⟩
  | setCutover l corr p =>
    exact ⟨_, rfl, request_cutoverOk hs CutoverKept.refl fun a _ _ hu => setCutoverAct_cutoverOk hu l corr a⟩
  | closeBatch l corr p => exact ⟨_, rfl, plainRequest_cutoverOk hs CutoverKept.refl (closeBatchAct_cutoverKept l corr)⟩
  | deferredClose r => exact cutoverOk_of_kept hs (execDeferredClose_cutoverKept s r)
  | setupBegin l corr p =>
    exact ⟨_, rfl, request_cutoverOk hs habandon fun a _ _ hu => setupBeginAct_cutoverOk hu l corr a⟩
  | routeDefine l corr p =>
    exact ⟨_, rfl, plainRequest_cutoverOk hs habandon fun a u => routeDefineAct_cutoverKept l corr u a⟩
  | setupEnd l corr p => exact ⟨_, rfl, plainRequest_cutoverOk hs habandon fun _ => setupEndAct_cutoverKept l corr⟩
  | statusRead l corr p => exact ⟨_, rfl, plainRequest_cutoverOk hs CutoverKept.refl fun _ _ => .of_eq rfl rfl⟩
  | faultRead l corr p => exact ⟨_, rfl, plainRequest_cutoverOk hs CutoverKept.refl fun _ => faultReadAct_cutoverKept l corr⟩
  | routeQuery l corr p => exact ⟨_, rfl, plainRequest_cutoverOk hs CutoverKept.refl (routeQueryAct_cutoverKept l corr)⟩
  | erase l corr p => exact ⟨_, rfl, request_cutoverOk hs CutoverKept.refl fun _ u _ _ => eraseAct_cutoverOk l corr u⟩
  | warmRestore straps => exact execWarmRestore_cutoverOk hs straps
  | storeLost straps => exact execStoreLost_cutoverOk hs straps
  | resetLine => exact cutoverOk_of_kept hs (execResetLine_cutoverKept s)
  | powerLoss => exact execPowerLoss_cutoverOk hs
  | retentionLoss => exact ⟨_, rfl, hs.kept (.of_eq rfl rfl)⟩
  | unknownKind l corr kind p => exact cutoverOk_of_kept hs (execUnknownKind_cutoverKept s l corr kind p)

/-- Settles O59: the procedure's own events take the unit's fields from one stage to the next, and a cut-over roll begins and
ends as the next family in ROLLING; a restore ends IDLE with no roll; every other step leaves stage, next family and rolls. -/
theorem stepKeepsCutoverOk : Obligations.StepKeepsCutoverOk := by
  intro s t hs hstep
  unfold step at hstep
  split at hstep
  · cases hstep
    exact hs
  · next c rest _ =>
    have hb : State.CutoverOk { s with pending := rest } := hs.kept (.of_eq rfl rfl)
    obtain ⟨u, hu, hok⟩ := exec_cutoverOk c hb
    rw [hu] at hstep
    cases hstep
    exact hok

end Sys2Proof.Machine
end

section
/-! The clock and the cut-over (08_cut_over_and_batch_close.md): the second tick, the near warning and the match, the procedure,
SET CLOCK and SET CUTOVER. -/

namespace Sys2Proof.Machine

/-! ### The second tick (R131, R137) -/

theorem nextSecond_within {t : ClockTime} (h : t.sec < 86399) : nextSecond t = ⟨t.day, t.sec + 1⟩ :=
  if_pos (Nat.succ_lt_succ h)

/-- After second 86,399 the next day begins, day 0 after day 65,535 (R137). -/
theorem nextSecond_last {t : ClockTime} (h : t.sec = 86399) :
    nextSecond t = ⟨if t.day = 65535 then 0 else t.day + 1, 0⟩ := by
  simp [nextSecond, Config.daySeconds, h]

theorem nextSecond_sec (t : ClockTime) : (nextSecond t).sec = if t.sec + 1 < 86400 then t.sec + 1 else 0 := by
  unfold nextSecond
  split
  · next h => exact (if_pos h).symm
  · next h => exact (if_neg h).symm

theorem exec_tick_on {s : State} (hon : s.supply = .on) : exec .tick s =
    .next { s with cutover := s.tickDue (nextSecond s.time), dispatch := tickTimers s.dispatch } :=
  congrArg Host.Outcome.next (if_pos (awake_of_on hon))

theorem exec_tick_asleep {s : State} (hoff : s.supply ≠ .on) : exec .tick s =
    .next { s with cutover := { s.cutover with clock := nextSecond s.time } } :=
  congrArg Host.Outcome.next (if_neg (by simpa [State.awake] using hoff))

/-- The clock advances in every supply state (R137). -/
theorem exec_tick_time (s : State) : ∃ t, exec .tick s = .next t ∧ t.time = nextSecond s.time := by
  by_cases hon : s.supply = .on
  · exact ⟨_, exec_tick_on hon, rfl⟩
  · exact ⟨_, exec_tick_asleep hon, rfl⟩

/-- A tick writes a route's timer alone (R131). -/
theorem route_ticked (s : State) (u : CutoverUnit) (r : RouteNo) :
    State.route { s with cutover := u, dispatch := tickTimers s.dispatch } r =
      { s.route r with timer := (s.route r).timer.tick } :=
  Vec.get_gen _ r

/-- Settles O39: the clock by the three cases of its next second, the rest by whether the part is powered. -/
theorem tickAdvancesClock : Obligations.TickAdvancesClock := by
  intro s
  obtain ⟨t, he, htime⟩ := exec_tick_time s
  refine ⟨t, he, fun h => ?within, fun h hday => ?newDay, fun h => ?dayZero, fun hoff => ?asleep, fun hon => ?powered⟩
  case within => rw [htime, nextSecond_within h]
  case newDay => rw [htime, nextSecond_last h, if_neg (Nat.ne_of_lt hday)]
  case dayZero => rw [htime, h, nextSecond_last rfl, if_pos rfl]
  case asleep =>
    rw [exec_tick_asleep hoff] at he
    cases he
    rfl
  case powered =>
    rw [exec_tick_on hon] at he
    cases he
    refine ⟨fun r => ?_, rfl, rfl, rfl, rfl, rfl, rfl, rfl, rfl, rfl⟩
    rw [route_ticked]
    exact ⟨rfl, fun n hn => by rw [hn]; rfl, fun hn => by rw [hn]; rfl, fun hn => by rw [hn]; rfl⟩

/-! ### The near warning and the match (R140, R141, R143) -/

theorem hits_iff (c : CutoverSetting) (sec : Nat) : c.hits sec = true ↔ FallsOn c sec := by
  obtain ⟨hour, minute, enabled⟩ := c
  cases hour with
  | any => exact beq_iff_eq
  | hour h => exact beq_iff_eq

theorem armed_hits_iff (s : State) (sec : Nat) :
    (s.cutoverArmed && s.cutover.setting.hits sec) = true ↔ CutoverArmed s ∧ FallsOn s.cutover.setting sec := by
  rw [Bool.and_eq_true, cutoverArmed_iff, hits_iff]

/-- What a tick of a powered part makes due (R140, R141). -/
theorem tickDue_matchDue (s : State) (now : ClockTime) :
    (CutoverArmed s ∧ FallsOn s.cutover.setting now.sec → (s.tickDue now).matchDue = some now) ∧
    (¬ (CutoverArmed s ∧ FallsOn s.cutover.setting now.sec) → (s.tickDue now).matchDue = s.cutover.matchDue) := by
  rw [← armed_hits_iff]
  exact ⟨fun h => if_pos h, fun h => if_neg h⟩

theorem tickDue_nearDue (s : State) (now : ClockTime) :
    (CutoverArmed s ∧ FallsOn s.cutover.setting ((now.sec + 60) % 86400) → (s.tickDue now).nearDue = true) ∧
    (¬ (CutoverArmed s ∧ FallsOn s.cutover.setting ((now.sec + 60) % 86400)) →
      (s.tickDue now).nearDue = s.cutover.nearDue) := by
  have hdue : (s.tickDue now).nearDue = (s.cutover.nearDue ||
    (s.cutoverArmed && s.cutover.setting.hits ((now.sec + 60) % 86400))) := rfl
  rw [← armed_hits_iff, hdue]
  exact ⟨fun h => by rw [h, Bool.or_true], fun h => by rw [Bool.eq_false_iff.mpr h, Bool.or_false]⟩

theorem exec_nearWarning {s : State} (hon : s.supply = .on) (hdue : s.cutover.nearDue = true) :
    exec .nearWarning s = .next (State.raise
      { s with cutover := { s.cutover with near := true, nearDue := false } } .cutoverNear) :=
  congrArg Host.Outcome.next (if_pos (by rw [awake_of_on hon, hdue]; rfl))

theorem Engine.isIdle_iff (e : Engine) : e.isIdle = true ↔ e = .idle := by
  cases e <;> simp [Engine.isIdle]

/-- The stage a match enters (R142, R143). -/
theorem matched_eq (u : CutoverUnit) (t : ClockTime) (e : Engine) : u.matched t e.isIdle =
    { u with
      near := false
      nearDue := false
      matchDue := none
      matchTime := some t
      nextRoute := some 0
      nextFamily := some 0
      stage := if e = .idle then .closing else .waiting } := by
  simp only [CutoverUnit.matched, CutoverUnit.withoutNear, Engine.isIdle_iff]

theorem matched_stage (u : CutoverUnit) (t : ClockTime) (engineIdle : Bool) : (u.matched t engineIdle).stage ≠ .idle := by
  cases engineIdle <;> nofun

theorem exec_cutoverMatch {s : State} {at_ : ClockTime} (hon : s.supply = .on) (hdue : s.cutover.matchDue = some at_)
    (hp : s.status.part = .running) (hst : s.cutover.stage = .idle) : exec .cutoverMatch s = .next
      { s with
        cutover := s.cutover.matched at_ s.engine.isIdle
        status := s.status.raiseIf s.cutover.nearDue .cutoverNear } := by
  change execCutoverMatch s = _
  simp [execCutoverMatch, awake_of_on hon, hdue, hp, hst]

/-- Outside IDLE no head is eligible (R64). -/
theorem not_eligible_of_stage {s : State} (h : s.cutover.stage ≠ .idle) (i : LaneNo) : s.eligible i = false := by
  refine Bool.eq_false_iff.mpr fun he => ?_
  obtain ⟨-, -, hidle, -⟩ := (eligible_iff s i).mp he
  exact h hidle

/-- Settles O40: the tick's second and its two marks, the warning's row, the match's row. -/
theorem warningAndMatch : Obligations.WarningAndMatch := by
  refine ⟨fun s hon => ?_, fun s hon hdue => exec_nearWarning hon hdue, fun s at_ hon hdue hp hst => ?_⟩
  · obtain ⟨hmatch, hunmatched⟩ := tickDue_matchDue s (nextSecond s.time)
    obtain ⟨hnear, hfar⟩ := tickDue_nearDue s (nextSecond s.time)
    exact ⟨_, exec_tick_on hon, nextSecond_sec s.time, hmatch, hunmatched, hnear, hfar⟩
  · exact ⟨_, exec_cutoverMatch hon hdue hp hst, matched_eq s.cutover at_ s.engine,
      not_eligible_of_stage (matched_stage _ _ _), rfl, rfl, rfl, rfl, rfl, rfl, rfl, rfl, rfl⟩

/-! ### The procedure (R142, R144, R145) -/

theorem exec_cutoverClosingStart {s : State} (hon : s.supply = .on) (hst : s.cutover.stage = .waiting)
    (he : s.engine = .idle) :
    exec .cutoverClosingStart s = .next { s with cutover := { s.cutover with stage := .closing } } :=
  congrArg Host.Outcome.next (if_pos (by rw [awake_of_on hon, hst, he]; rfl))

section

variable {s : State} {r q : RouteNo} {f : FamilyNo}

theorem exec_cutoverRouteClose (hon : s.supply = .on) (hst : s.cutover.stage = .closing)
    (hr : s.cutover.nextRoute = some r) : exec .cutoverRouteClose s = .next (s.closeNextRoute r) := by
  change execCutoverRouteClose s = _
  simp [execCutoverRouteClose, awake_of_on hon, hst, hr]

/-- The routes after a route are searched in their order (R144). -/
theorem routeAfter_eq_some (hrq : r < q) (hq : s.defined q = true)
    (hbetween : ∀ x : RouteNo, r < x → x < q → s.defined x = false) : s.routeAfter r = some q := by
  unfold State.routeAfter
  rw [List.find?_eq_some_iff_getElem]
  refine ⟨by simp [hrq, hq], q.val, by simp, by simp, fun j hj => ?_⟩
  by_cases hrj : r < ⟨j, by omega⟩
  · simp [hbetween ⟨j, by omega⟩ hrj hj]
  · simp [hrj]

theorem routeAfter_eq_none (h : ∀ q : RouteNo, r < q → s.defined q = false) : s.routeAfter r = none := by
  unfold State.routeAfter
  rw [List.find?_eq_none]
  intro q _
  by_cases hrq : r < q
  · simp [h q hrq]
  · simp [hrq]

/-- A defined route's request leaves the Cut-over Unit but for the route done (R144). -/
theorem closeNextRoute_defined (hd : s.defined r = true) : s.closeNextRoute r =
    { (s.requestClose r .scheduled).1 with cutover := s.cutover.routeDone (s.routeAfter r) } := by
  have hasked : s.askClose r = (s.requestClose r .scheduled).1 := if_pos hd
  unfold State.closeNextRoute
  dsimp only
  rw [(askClose_cutoverKept s r).unit, hasked]

theorem routeDone_some {u : CutoverUnit} (hst : u.stage = .closing) (q : RouteNo) :
    u.routeDone (some q) = { u with nextRoute := some q } := by
  unfold CutoverUnit.routeDone
  rw [← hst]
  rfl

/-- A family dealt with: the family after it is the next, or the procedure is at its end (R145). -/
theorem familyDone_eq (s : State) (f : FamilyNo) : s.familyDone f =
    if h : f.val + 1 < 8 then { s with cutover := { s.cutover with nextFamily := some ⟨f.val + 1, h⟩ } }
    else State.raise
      { s with cutover := { s.cutover with nextFamily := none, matchTime := none, stage := .idle } } .cutoverDone := by
  split
  · exact familyDone_next rfl
  · exact familyDone_last (by omega)

theorem exec_cutoverFamilyRoll (hon : s.supply = .on) (hst : s.cutover.stage = .rolling)
    (hf : s.cutover.nextFamily = some f) (hop : (s.family f).op ≠ .cutoverRoll) :
    exec .cutoverFamilyRoll s = .next (s.rollTurn f) := by
  change execCutoverFamilyRoll s = _
  simp [execCutoverFamilyRoll, awake_of_on hon, hst, hf, hop]

/-- A family whose mark is no is passed by (R145). -/
theorem rollTurn_passed (h : (s.family f).now.rollAtCutover = false) : s.rollTurn f = s.familyDone f := by
  simp [State.rollTurn, h]

/-- A family that may roll begins its roll (R33). -/
theorem rollTurn_begun (h : (s.family f).now.rollAtCutover = true) (hcan : (s.family f).now.canRoll = true) :
    s.rollTurn f = s.setFamily f ((s.family f).begin .cutoverRoll .rolling) := by
  simp [State.rollTurn, h, hcan]

/-- A family that may not roll is logged ROLL_REFUSED and passed (R33, R145). -/
theorem rollTurn_refused (h : (s.family f).now.rollAtCutover = true) (hcan : (s.family f).now.canRoll ≠ true) :
    s.rollTurn f = (s.logFault .rollRefused f.val).familyDone f := by
  simp [State.rollTurn, h, hcan]

end

/-- Settles O43: each of the three rows by what stands next. -/
theorem cutoverProcedure : Obligations.CutoverProcedure := by
  refine ⟨⟨fun s hon hst he => exec_cutoverClosingStart hon hst he, fun s r hon hst hr hd => ?_⟩,
    fun s f hon hst hf hop => ?_⟩
  · rw [exec_cutoverRouteClose hon hst hr, closeNextRoute_defined hd]
    refine ⟨fun q hrq hq hbetween => ?_, fun hlast => ?_⟩
    · rw [routeAfter_eq_some hrq hq hbetween, routeDone_some hst]
    · rw [routeAfter_eq_none hlast]
      rfl
  · dsimp only
    rw [exec_cutoverFamilyRoll hon hst hf hop, ← familyDone_eq, ← familyDone_eq]
    exact ⟨fun hno => congrArg _ (rollTurn_passed hno),
      fun hyes hmay => congrArg _ (rollTurn_begun hyes (canRoll_iff.mpr hmay)),
      fun hyes hmay => congrArg _ (rollTurn_refused hyes (mt canRoll_iff.mp hmay))⟩

/-! ### SET CLOCK and SET CUTOVER (R138, R139, R174) -/

theorem hourOf_any {b : Byte} (h : b.toNat = 255) : hourOf b = some .any :=
  if_pos (BitVec.eq_of_toNat_eq h)

/-- A byte other than FFh is an hour of the day or none (R139, R174). -/
theorem hourOf_of_ne {b : Byte} (h : b.toNat ≠ 255) : hourOf b = (byteIn 0 23 b).map .hour :=
  if_neg fun hb => h (congrArg BitVec.toNat hb)

theorem hourOf_hour {b : Byte} (h : b.toNat ≤ 23) : hourOf b = some (.hour b.toNat) := by
  rw [hourOf_of_ne (by omega), byteIn_zero_of_le h]
  rfl

theorem hourOf_eq_none {b : Byte} (h : 24 ≤ b.toNat ∧ b.toNat ≤ 254) : hourOf b = none := by
  rw [hourOf_of_ne (by omega), byteIn_none_of_lt (by omega)]
  rfl

theorem settingOf_of_range {h m e : Byte} {hour : CutoverHour} (hh : hourOf h = some hour) (hm : m.toNat ≤ 59)
    (he : e.toNat ≤ 1) : settingOf (h, m, e) = some ⟨hour, m.toNat, e == 1#8⟩ := by
  simp [settingOf, hh, byteIn_zero_of_le hm, flagOf_of_le he]

/-- One field out of range leaves no setting (R139). -/
theorem settingOf_eq_none {h m e : Byte} (hout : (24 ≤ h.toNat ∧ h.toNat ≤ 254) ∨ 60 ≤ m.toNat ∨ 2 ≤ e.toNat) :
    settingOf (h, m, e) = none := by
  unfold settingOf
  split
  · next hh hm he =>
    rcases hout with hout | hout | hout
    · simp [hourOf_eq_none hout] at hh
    · simp [byteIn_none_of_lt hout] at hm
    · simp [flagOf_eq_none hout] at he
  · rfl

section

variable {l : LinkId} {corr : Byte} {s : State}

theorem exec_setClock_heard (h : s.Hears l 5) (hl : isPartner l = true) (d1 d0 s2 s1 s0 : Byte) :
    exec (.setClock l corr [d1, d0, s2, s1, s0]) s =
      .next (setClockAct l corr ⟨numberOf [d1, d0], numberOf [s2, s1, s0]⟩ s) :=
  congrArg Host.Outcome.next (request_taken (parse := parseClock) (p := [d1, d0, s2, s1, s0]) h (linkRing_of_isPartner hl) rfl)

theorem setClockAct_taken {t : ClockTime} (hp : s.status.part ≠ .setup) (ht : t.sec < 86400) : setClockAct l corr t s =
    State.answer
      { s with cutover := s.cutover.setTo t, status := s.status.raiseIf s.cutover.nearDue .cutoverNear } l corr .done :=
  (if_neg hp).trans (if_pos ht)

theorem setClockAct_range {t : ClockTime} (hp : s.status.part ≠ .setup) (ht : 86400 ≤ t.sec) :
    setClockAct l corr t s = s.answer l corr .badParameter :=
  (if_neg hp).trans (if_neg (Nat.not_lt.mpr ht))

theorem exec_setCutover_heard (h : s.Hears l 3) (hl : isPartner l = true) (hour minute enable : Byte) :
    exec (.setCutover l corr [hour, minute, enable]) s = .next (setCutoverAct l corr (hour, minute, enable) s) :=
  congrArg Host.Outcome.next (request_taken (parse := parseThree) (p := [hour, minute, enable]) h (linkRing_of_isPartner hl) rfl)

theorem setCutoverAct_taken {b : Byte × Byte × Byte} {c : CutoverSetting} (hp : s.status.part = .running)
    (hb : settingOf b = some c) : setCutoverAct l corr b s = State.answer
      { s with
        cutover := { s.cutover.withoutNear with setting := c }
        status := s.status.raiseIf s.cutover.nearDue .cutoverNear } l corr .done := by
  simp [setCutoverAct, hp, hb]

theorem setCutoverAct_range {b : Byte × Byte × Byte} (hp : s.status.part = .running) (hb : settingOf b = none) :
    setCutoverAct l corr b s = s.answer l corr .badParameter := by
  simp [setCutoverAct, hp, hb]

end

/-- Settles O44: each command through its checks to its fields in or out of range. -/
theorem clockAndSettingWritten : Obligations.ClockAndSettingWritten := by
  intro l corr s hl
  dsimp only
  refine ⟨fun hh hp d1 d0 s2 s1 s0 => ?clock, fun hh hp h m e => ?setting⟩
  case clock =>
    rw [exec_setClock_heard hh hl]
    exact ⟨fun hin => congrArg _ (setClockAct_taken hp hin), fun hout => congrArg _ (setClockAct_range hp hout)⟩
  case setting =>
    rw [exec_setCutover_heard hh hl]
    exact ⟨fun hhour hm he => congrArg _ (setCutoverAct_taken hp (settingOf_of_range (hourOf_hour hhour) hm he)),
      fun hhour hm he => congrArg _ (setCutoverAct_taken hp (settingOf_of_range (hourOf_any hhour) hm he)),
      fun hout => congrArg _ (setCutoverAct_range hp (settingOf_eq_none hout))⟩

end Sys2Proof.Machine
end

section
/-! Requests at their arrival (R150, R151, R153 to R156, R158): the rows of the request tables as the model runs them, the ring
of a link, the length of a payload, and a frame that meets another, a break, a full response queue or is too large. -/

namespace Sys2Proof.Machine

/-! ### Payload lengths (R154, R174) -/

/-- A parser reads payloads of certain lengths alone. -/
def ReadsOnly {α : Type} (parse : List Byte → Option α) (lengths : List Nat) : Prop :=
  ∀ p a, parse p = some a → p.length ∈ lengths

theorem ReadsOnly.eq_none {α : Type} {parse : List Byte → Option α} {lengths : List Nat} (h : ReadsOnly parse lengths)
    {p : List Byte} (hp : p.length ∉ lengths) : parse p = none :=
  Option.eq_none_iff_forall_ne_some.mpr fun a ha => hp (h p a ha)

theorem parseNone_readsOnly : ReadsOnly parseNone [0] := by
  intro p a h
  unfold parseNone at h
  split at h <;> simp_all

theorem parseByte_readsOnly : ReadsOnly parseByte [1] := by
  intro p a h
  unfold parseByte at h
  split at h <;> simp_all

theorem parseTwo_readsOnly : ReadsOnly parseTwo [2] := by
  intro p a h
  unfold parseTwo at h
  split at h <;> simp_all

theorem parseThree_readsOnly : ReadsOnly parseThree [3] := by
  intro p a h
  unfold parseThree at h
  split at h <;> simp_all

theorem parseAck_readsOnly : ReadsOnly parseAck [5] := by
  intro p a h
  unfold parseAck at h
  split at h <;> simp_all

theorem parseClock_readsOnly : ReadsOnly parseClock [5] := by
  intro p a h
  unfold parseClock at h
  split at h <;> simp_all

theorem parsePacked_readsOnly : ReadsOnly parsePacked [7] := by
  intro p a h
  unfold parsePacked at h
  split at h <;> simp_all

theorem parseEnrol_readsOnly : ReadsOnly parseEnrol [11] := by
  intro p a h
  unfold parseEnrol at h
  split at h <;> simp_all

theorem parseMove_readsOnly : ReadsOnly parseMove [5] := by
  intro p a h
  unfold parseMove at h
  split at h <;> simp_all

theorem parseDefine_readsOnly : ReadsOnly parseDefine [19] := by
  intro p a h
  unfold parseDefine at h
  split at h <;> simp_all

theorem parseLoad_readsOnly : ReadsOnly parseLoad [43] := by
  intro p a h
  unfold parseLoad at h
  split at h
  · next hlen => exact List.mem_singleton.mpr hlen
  · cases h

/-- STATUS READ has no payload or an enable list of two bytes (R174, R178). -/
theorem parseEnables_readsOnly : ReadsOnly parseEnables [0, 2] := by
  intro p a h
  unfold parseEnables at h
  split at h
  · exact List.mem_cons_self
  · exact List.mem_cons_of_mem _ List.mem_cons_self
  · cases h

/-! ### The rows of the request tables (R154, R155, R174) -/

/-- A row of the dispatch link's and service port's table as the model runs it: its frame's kind, the parser of its payload,
which reads the row's lengths alone, and its act; the row's ring and whether it is a setup message decide the rest. -/
structure RequestRow.IsRequest {α : Type} (row : RequestRow) (kind : Byte) (parse : List Byte → Option α)
    (act : LinkId → Byte → α → State → State) : Prop where
  frame  : ∀ l corr p, (row.make l corr p).frame = some (l, kind :: corr :: p)
  run    : ∀ l corr p s, exec (row.make l corr p) s =
    .next (request kind row.ring parse (if row.setup then State.abandon else id) l corr p (act l corr) s)
  reads  : ∀ ns, row.lengths = some ns → ReadsOnly parse ns

/-- A row that some kind, parser and act run as a request. -/
def RequestRow.Runs (row : RequestRow) : Prop :=
  ∃ (α : Type) (kind : Byte) (parse : List Byte → Option α) (act : LinkId → Byte → α → State → State),
    row.IsRequest kind parse act

/-- A row runs as a request when its frame and its command are those of one, up to unfolding, and its parser reads its lengths
alone. -/
theorem runs_of {α : Type} {make : LinkId → Byte → List Byte → Instr} {ring : Nat} {ns : List Nat} {setup : Bool}
    {kind : Byte} {parse : List Byte → Option α} {act : LinkId → Byte → α → State → State}
    (hreads : ReadsOnly parse ns)
    (hframe : ∀ l corr p, (make l corr p).frame = some (l, kind :: corr :: p))
    (hrun : ∀ l corr p s, exec (make l corr p) s =
      .next (request kind ring parse (if setup then State.abandon else id) l corr p (act l corr) s)) :
    RequestRow.Runs ⟨make, ring, some ns, setup⟩ :=
  ⟨α, kind, parse, act, hframe, hrun, fun _ h => Option.some.inj h ▸ hreads⟩

/-- Each row's frame and command unfold to a request's; what its parser reads is looked up. -/
theorem partnerRows_run : ∀ row ∈ partnerRows, row.Runs := by
  simp only [partnerRows, List.forall_mem_append, List.forall_mem_cons, List.not_mem_nil, false_implies, implies_true, and_true]
  and_intros
  all_goals refine runs_of ?_ (fun _ _ _ => rfl) (fun _ _ _ _ => rfl)
  all_goals simp only [parseNone_readsOnly, parseByte_readsOnly, parseTwo_readsOnly, parseThree_readsOnly, parseAck_readsOnly,
    parseClock_readsOnly, parsePacked_readsOnly, parseEnrol_readsOnly, parseMove_readsOnly, parseDefine_readsOnly,
    parseLoad_readsOnly, parseEnables_readsOnly]

/-- A row of the lanes' table as the model runs it: its frame's kind, and its act on the lane (R61). -/
def RequestRow.RunsOnLane (row : RequestRow) : Prop :=
  ∃ (kind : Byte) (act : Byte → List Byte → LaneNo → State → State), ∀ l corr p,
    (row.make l corr p).frame = some (l, kind :: corr :: p) ∧
    ∀ s, exec (row.make l corr p) s = .next (laneRequest kind l corr p (act corr p) s)

theorem laneRows_run : ∀ row ∈ laneRows, row.RunsOnLane := by
  simp only [laneRows, List.forall_mem_cons, List.not_mem_nil, false_implies, implies_true, and_true]
  exact ⟨⟨_, fun corr p i => wrapRequestAct .auth i corr p, fun _ _ _ => ⟨rfl, fun _ => rfl⟩⟩,
    ⟨_, fun corr p i => wrapRequestAct .refund i corr p, fun _ _ _ => ⟨rfl, fun _ => rfl⟩⟩,
    ⟨_, fun corr p i => wrapRequestAct .reversal i corr p, fun _ _ _ => ⟨rfl, fun _ => rfl⟩⟩,
    ⟨_, fun corr _ => laneStatusAct corr, fun _ _ _ => ⟨rfl, fun _ => rfl⟩⟩⟩

/-- A lane's request on a link without a lane is refused PRIVILEGE (R61, R155). -/
theorem laneRequest_privilege {kind : Byte} {l : LinkId} {corr : Byte} {p : List Byte} {act : LaneNo → State → State}
    {s : State} (h : s.Hears l p.length) (hl : isPartner l = true) :
    laneRequest kind l corr p act s = s.answer l corr .privilege := by
  cases l with
  | lane i => cases hl
  | dispatch => simp [laneRequest, frameArrives_of_hears h (body := kind :: corr :: p) rfl]
  | service => simp [laneRequest, frameArrives_of_hears h (body := kind :: corr :: p) rfl]

/-- Settles O4: a row of either table is refused by the ring of its link. -/
theorem privilegeByRing : Obligations.PrivilegeByRing := by
  refine ⟨⟨fun _ => ⟨rfl, rfl⟩, rfl, rfl, rfl, rfl⟩, fun row hrow l corr p s hears hring => ?partner,
    fun row hrow l corr p s hears hpartner => ?lane⟩
  case partner =>
    obtain ⟨α, kind, parse, act, hreq⟩ := partnerRows_run row hrow
    rw [hreq.run, request_privilege hears hring]
  case lane =>
    obtain ⟨kind, act, hreq⟩ := laneRows_run row hrow
    rw [(hreq l corr p).2, laneRequest_privilege hears hpartner]

/-- Settles O5: the row's parser reads none of the other lengths. -/
theorem payloadLengthChecked : Obligations.PayloadLengthChecked := by
  intro row hrow ns l corr p s hns hears hring hlen
  obtain ⟨α, kind, parse, act, hreq⟩ := partnerRows_run row hrow
  rw [hreq.run, request_badLength hears hring ((hreq.reads ns hns).eq_none hlen)]
  cases row.setup <;> rfl

/-! ### The arrival of a frame (R150, R151, R156, R158) -/

/-- A command that is what becomes of the arrival of one frame: states at which the frame arrives alike are alike to it, and a
frame that is gone leaves its state. -/
structure ArrivesAs (i : Instr) (l : LinkId) (body : List Byte) : Prop where
  frame : i.frame = some (l, body)
  alike : ∀ s t, frameArrives l body s = frameArrives l body t → exec i s = exec i t
  gone  : ∀ s t, frameArrives l body s = .gone t → exec i s = .next t

/-- A row's command is what becomes of the arrival of its frame. -/
theorem arrivesAs_of_mem {row : RequestRow} (hrow : row ∈ partnerRows ++ laneRows) (l : LinkId) (corr : Byte) (p : List Byte) :
    ∃ kind, ArrivesAs (row.make l corr p) l (kind :: corr :: p) := by
  rcases List.mem_append.mp hrow with h | h
  · obtain ⟨α, kind, parse, act, hreq⟩ := partnerRows_run row h
    refine ⟨kind, hreq.frame l corr p, fun s t hst => ?_, fun s t hgone => ?_⟩
    · rw [hreq.run, hreq.run, request, request, hst]
    · rw [hreq.run, request, hgone]
  · obtain ⟨kind, act, hreq⟩ := laneRows_run row h
    obtain ⟨hframe, hrun⟩ := hreq l corr p
    refine ⟨kind, hframe, fun s t hst => ?_, fun s t hgone => ?_⟩
    · rw [hrun, hrun, laneRequest, laneRequest, hst]
    · rw [hrun, laneRequest, hgone]

section

variable {s : State} {l : LinkId} {body : List Byte}

theorem frameArrives_hunting (hon : s.supply = .on) (h : (s.link l).receiver = .hunting) :
    frameArrives l body s = frameEnds l body.length s := by
  simp [frameArrives, State.awake, hon, h]

/-- A receiver that holds the beginning of a frame is RECEIVING it. -/
theorem receiving_of_begins {rx : Receiver} (h : rx.begins body = true) : ∃ taken esc, rx = .receiving taken esc := by
  cases rx with
  | hunting => cases h
  | receiving taken esc => exact ⟨taken, esc, rfl⟩
  | inBreak => cases h

theorem frameArrives_begun (hon : s.supply = .on) (h : (s.link l).receiver.begins body = true) :
    frameArrives l body s = frameEnds l body.length (s.freeReceiver l) := by
  obtain ⟨taken, esc, hrx⟩ := receiving_of_begins h
  rw [hrx] at h
  simp [frameArrives, State.awake, hon, hrx, h]

theorem frameArrives_cut {taken : List Byte} {esc : Bool} (hon : s.supply = .on)
    (hrx : (s.link l).receiver = .receiving taken esc) (h : (s.link l).receiver.begins body = false) :
    frameArrives l body s = frameEnds l body.length (s.cutFrame l) := by
  rw [hrx] at h
  simp [frameArrives, State.awake, hon, hrx, h]

/-- A frame taken up by the receiver that holds its beginning arrives as on the link with its receiver free. -/
theorem frameArrives_freeReceiver (hon : s.supply = .on) (h : (s.link l).receiver.begins body = true) :
    frameArrives l body s = frameArrives l body (s.freeReceiver l) := by
  rw [frameArrives_begun hon h, frameArrives_hunting (s := s.freeReceiver l) hon (by simp [State.freeReceiver])]

/-- A frame that meets another arrives as on the link with that one ended. -/
theorem frameArrives_cutFrame {taken : List Byte} {esc : Bool} (hon : s.supply = .on)
    (hrx : (s.link l).receiver = .receiving taken esc) (h : (s.link l).receiver.begins body = false) :
    frameArrives l body s = frameArrives l body (s.cutFrame l) := by
  rw [frameArrives_cut hon hrx h, frameArrives_hunting (s := s.cutFrame l) hon (by simp [State.cutFrame])]

theorem full_eq (k : Link) : k.full = if k.queue.length < 32 then false else true := by
  by_cases hq : k.queue.length < 32
  · simp [Link.full, Config.responseLimit, hq, Nat.not_le.mpr hq]
  · simp [Link.full, Config.responseLimit, hq, Nat.not_lt.mp hq]

/-- A bad frame's answer joins a response queue below 32 entries (R153, R156). -/
theorem reportBad_eq (k : Link) :
    k.reportBad = if k.queue.length < 32 then k.push (.run frameBadAnswer []) else k := by
  rw [Link.reportBad, full_eq]
  split <;> rfl

theorem frameEnds_full {n : Nat} (h : Config.responseLimit ≤ (s.link l).queue.length) : frameEnds l n s = .gone s := by
  simp [frameEnds, Link.full, h]

/-- A body above the link's largest is answered FRAME_BAD while fewer than 32 entries wait (R151, R156). -/
theorem frameEnds_oversized {n : Nat} (h : largestBody l < n) :
    frameEnds l n s = .gone (if (s.link l).queue.length < 32 then s.send l frameBadAnswer else s) := by
  rw [frameEnds, full_eq, if_pos h]
  split <;> rfl

/-- A frame in progress cut off: FRAME_BAD unless 32 entries wait, and the receiver free (R151, R153, R156). -/
theorem cutFrame_eq (s : State) (l : LinkId) : s.cutFrame l =
    if (s.link l).queue.length < 32 then (s.send l frameBadAnswer).freeReceiver l else s.freeReceiver l := by
  rw [State.cutFrame, reportBad_eq]
  split
  · have hlink : (s.send l frameBadAnswer).link l = (s.link l).push (.run frameBadAnswer []) := Vec.get_put_same _ _ _
    rw [State.freeReceiver, hlink]
    exact (setLink_setLink s l _ _).symm
  · rfl

end

/-- Settles O6: the arrival of the row's frame by what the link's receiver is at. -/
theorem frameArrival : Obligations.FrameArrival := by
  refine ⟨⟨fun _ => rfl, rfl, rfl, rfl⟩, fun s l => ⟨rfl, cutFrame_eq s l⟩, begins_iff,
    fun row hrow l corr p s hdeaf => ?deaf, fun row hrow l corr p body s hon hframe => ?heard⟩
  case deaf =>
    obtain ⟨kind, harrives⟩ := arrivesAs_of_mem hrow l corr p
    refine harrives.gone s s ?_
    rcases hdeaf with hoff | hbreak | ⟨hhunting, hfull⟩
    · exact frameArrives_asleep l _ hoff
    · exact frameArrives_inBreak l _ hbreak
    · by_cases hon : s.supply = .on
      · rw [frameArrives_hunting hon hhunting, frameEnds_full hfull]
      · exact frameArrives_asleep l _ hon
  case heard =>
    obtain ⟨kind, harrives⟩ := arrivesAs_of_mem hrow l corr p
    cases harrives.frame.symm.trans hframe
    refine ⟨fun taken esc hrx => ⟨fun hbegins => ?begun, fun hother => ?cut⟩, fun hhunting hroom hlarge => ?oversized⟩
    case begun => exact harrives.alike _ _ (frameArrives_freeReceiver hon hbegins)
    case cut => exact harrives.alike _ _ (frameArrives_cutFrame hon hrx hother)
    case oversized =>
      refine harrives.gone _ _ ((frameArrives_hunting hon hhunting).trans ((frameEnds_oversized hlarge).trans ?_))
      exact congrArg _ (if_pos hroom)

end Sys2Proof.Machine
end

section
/-! The frame on its line (R151, R152, R174 to R178): the receiver character by character, the round trip of a frame, and the
bodies of the messages field by field. -/

namespace Sys2Proof.Machine

/-! ### The layouts of bodies (R174 to R178) -/

theorem numbersRead : NumbersRead := by
  refine ⟨⟨rfl, numberOf_append_one⟩, fun k n => ⟨bigEndian_length k n, numberOf_bigEndian k n⟩,
    ⟨rfl, nibblesOf_cons⟩, ⟨rfl, decimal_append_one⟩, fun bs => ⟨fun h => ?_, fun ⟨d, hd, hbig⟩ => ?_⟩,
    fun k n => ⟨packed_length k n, packed_digits k n, decimal_packed k n⟩⟩
  · rw [packedOf_eq, if_pos h]
  · rw [packedOf_eq, if_neg fun h => Nat.not_lt.mpr (h d hd) hbig]

theorem fieldValues : FieldValues :=
  ⟨rfl, rfl, rfl, rfl, rfl, rfl, rfl, rfl, rfl, rfl, rfl, fun _ => rfl, rfl, rfl, rfl, rfl, rfl, rfl, rfl, rfl, rfl,
    fun _ => rfl, rfl⟩

theorem codeValues : CodeValues := ⟨rfl, rfl, rfl, rfl, rfl, rfl, rfl, rfl, rfl, rfl⟩

theorem requestBodies : RequestBodies := ⟨rfl, fun _ _ _ => ⟨rfl, rfl, rfl, rfl, rfl⟩⟩

/-! A field of a body is the same bytes under the model's name and the statements' name. A `rfl` after the rewriting of a body
sees that the matches on an optional field agree; where the rewriting has seen it already, it has nothing left to do. -/

theorem mark_eq_yesNo (b : Bool) : mark b = yesNo b := rfl

theorem timeBytes_eq_timeField (t : ClockTime) : timeBytes t = timeField t := rfl

theorem identityBytes_eq_identityField (id : Identity) : identityBytes id = identityField id := rfl

theorem one_eq (n : Nat) : one n = bigEndian 1 n := rfl

theorem sums_counts_eq_totalsField (t : Totals) : sumBytes t ++ countBytes t = totalsField t := rfl

theorem indexOrAbsent_eq_indexField {n : Nat} (i : Option (Fin n)) : indexOrAbsent i = indexField i := by
  cases i <;> rfl

theorem subtotalBytes_eq (e : TerminalNo × Totals) : subtotalBytes e = bigEndian 1 e.1.val ++ totalsField e.2 :=
  List.append_assoc _ _ _

/-- A data record's image (R176): its sections' byte and its two sections by which of them are there. -/
theorem recordLaidOut (r : Record) : RecordLaidOut r := by
  have hsections : one ((if r.card.isSome then 1 else 0) + (if r.ref.isSome then 2 else 0)) =
      [match r.card.isSome, r.ref.isSome with
        | false, false => 0#8
        | true, false => 1#8
        | false, true => 2#8
        | true, true => 3#8] := by
    cases r.card.isSome <;> cases r.ref.isSome <;> rfl
  have hcard : cardBytes r.card = match r.card with
      | some c => bigEndian 1 c.data.length ++ bigEndian 1 c.pad ++ c.data
      | none => [] := by
    cases r.card <;> rfl
  have href : referenceBytes r.ref = match r.ref with
      | some x => identityField x.id ++ bigEndian 2 x.till
      | none => [] := by
    cases r.ref <;> rfl
  simp only [RecordLaidOut, Image.bytes, recordImage, hsections, hcard, href, mark_eq_yesNo, timeBytes_eq_timeField, one_eq,
    List.append_assoc, List.cons_append, List.nil_append] <;> rfl

/-- A close record's image (R177), its subtotals entry by entry. -/
theorem closeLaidOut (c : CloseRecord) : CloseLaidOut c := by
  have hsub : subtotalBytes = fun e => bigEndian 1 e.1.val ++ totalsField e.2 := funext subtotalBytes_eq
  simp only [CloseLaidOut, Image.bytes, closeImage, hsub, mark_eq_yesNo, timeBytes_eq_timeField, one_eq, sumBytes, countBytes,
    List.append_assoc, List.cons_append, List.nil_append]

/-- A route's block of the status reply (R178): 0 for no pending close. -/
theorem routeStatusBytes_eq_routeBlock (r : Option RouteStatus) : routeStatusBytes r = routeBlock r := by
  cases r with
  | none => rfl
  | some r =>
    have hreason : (r.reason.map CloseReason.value).getD 0#8 = match r.reason with
        | some why => why.value
        | none => 0#8 := by
      cases r.reason <;> rfl
    simp only [routeStatusBytes, routeBlock, hreason, mark_eq_yesNo, List.append_assoc, List.cons_append,
      List.nil_append] <;> rfl

/-- The status reply (R178): its three fields that may be absent by whether they are. -/
theorem statusLaidOut (r : StatusReport) : StatusLaidOut r := by
  have hroutes : routeStatusBytes = routeBlock := funext routeStatusBytes_eq_routeBlock
  have hprior : (r.prior.map PriorState.value).getD 255#8 = match r.prior with
      | some x => x.value
      | none => 255#8 := by
    cases r.prior <;> rfl
  have hposition : [(r.position.map (BitVec.ofNat 8)).getD 255#8] = match r.position with
      | some n => bigEndian 1 n
      | none => [255#8] := by
    cases r.position <;> simp [bigEndian]
  have hmatch : timeBytes (r.matchTime.getD ⟨0, 0⟩) = match r.matchTime with
      | some t => timeField t
      | none => timeField ⟨0, 0⟩ := by
    cases r.matchTime <;> rfl
  simp only [StatusLaidOut, Reply.bytes, statusBytes, wordBytes, hroutes, hprior, hposition, hmatch, mark_eq_yesNo,
    timeBytes_eq_timeField, indexOrAbsent_eq_indexField, one_eq, List.append_assoc, List.cons_append, List.nil_append] <;> rfl

/-- The other replies: the advisory byte by its two bits, a terminal's history entry by entry, the rest as they stand (log 15). -/
theorem repliesLaidOut : RepliesLaidOut := by
  refine ⟨rfl, fun adv id => ?_, fun id d rev => ?_, fun r => ?_, fun _ _ => rfl, fun _ => rfl, fun e flight => ?_,
    fun f n st => ⟨rfl, rfl⟩, fun r => ?_, fun _ => rfl, fun _ _ => rfl, fun _ => rfl, fun _ => ⟨rfl, fun _ => rfl⟩,
    fun _ => rfl, fun e left ov => ?_, fun _ => rfl⟩
  · rcases adv with ⟨near, down⟩
    cases near <;> cases down <;> rfl
  · rfl
  · rfl
  · have hhist : historyBytes = fun h => bigEndian 2 h.till ++ [h.kind.value] ++ packed 6 h.amount ++ identityField h.id ++
      [h.cls.value, h.disposition.value] ++ yesNo h.reversed ++ yesNo h.offline := rfl
    simp only [Reply.bytes, terminalBytes, hhist, totalsField, sumBytes, countBytes, List.append_assoc]
    rfl
  · rfl
  · rfl

/-- The reply of ROUTE QUERY (R170): its pending close, timer, stream and first entry by whether they are there. -/
theorem routeReplyLaidOut (r : RouteReport) : RouteReplyLaidOut r := by
  have hpending : pendingBytes r.queue.pending = match r.queue.pending with
      | some x => [x.1.value, x.2.value]
      | none => [0#8, 0#8] := by
    cases r.queue.pending <;> rfl
  have htimer : r.dispatch.timer.bytes = match r.dispatch.timer with
      | .running n => [1#8] ++ bigEndian 1 n
      | .stopped => [0#8, 0#8] := by
    cases r.dispatch.timer <;> rfl
  have hstream : streamBytes r.dispatch.stream = match r.dispatch.stream with
      | some st => [1#8] ++ bigEndian 1 st.base ++ bigEndian 1 st.current ++ yesNo st.renew ++ [linkValue st.link, st.corr]
      | none => [0#8, 0#8, 0#8, 0#8, 255#8, 0#8] := by
    cases r.dispatch.stream <;> rfl
  have hfirst : firstOffered r.dispatch.first = match r.dispatch.first with
      | some id => identityField id
      | none => [255#8, 0#8, 0#8, 0#8, 0#8] := by
    cases r.dispatch.first <;> rfl
  refine ⟨?_, rfl⟩
  simp only [Reply.bytes, routeBytes, configBytes, queueBytes, accountBytes, dispatchBytes, hpending, htimer, hstream, hfirst,
    mark_eq_yesNo, timeBytes_eq_timeField, one_eq, sums_counts_eq_totalsField, List.append_assoc, List.cons_append,
    List.nil_append] <;> rfl

theorem messagesLaidOut : MessagesLaidOut :=
  ⟨fun _ _ _ => rfl, fun _ _ _ _ => rfl, fun _ _ _ _ => ⟨rfl, rfl⟩, recordLaidOut, closeLaidOut, statusLaidOut,
    repliesLaidOut, routeReplyLaidOut⟩

/-! ### The receiver, character by character (R151, R152) -/

theorem takenAs_takeByte (largest : Nat) (taken : List Byte) (b : Byte) :
    TakenAs largest (taken ++ [b]) (takeByte largest taken b) := by
  refine ⟨fun hshort => ?short, fun hlen => ⟨fun hrange => ?range, fun hlo hhi => ⟨fun hmore => ?more, fun hall =>
    ⟨fun hcrc => ?good, fun hcrc => ?bad⟩⟩⟩⟩
  case short => rw [takeByte, if_pos hshort]
  all_goals rw [takeByte, if_neg (Nat.not_lt.mpr hlen)]
  case range => rw [if_pos hrange]
  all_goals rw [if_neg (not_or.mpr ⟨Nat.not_lt.mpr hlo, Nat.not_lt.mpr hhi⟩)]
  case more => rw [if_pos hmore]
  all_goals rw [if_neg (Nat.not_lt.mpr hall)]
  case good => exact if_pos hcrc
  case bad => exact if_neg hcrc

/-! ### The parts of a frame (R151, R152) -/

theorem framePlain_length (body : List Byte) : (framePlain body).length = body.length + 2 := by
  simp [framePlain]
  omega

theorem frameBytes_length (body : List Byte) : (frameBytes body).length = body.length + 4 := by
  rw [frameBytes, List.length_append, framePlain_length, crcBytes_length]

theorem frameBytes_take_length (body : List Byte) : (frameBytes body).take 2 = bigEndian 2 body.length := by
  rw [frameBytes, framePlain, List.append_assoc, List.take_left' (bigEndian_length 2 _)]

theorem frameBytes_take_plain (body : List Byte) : (frameBytes body).take (body.length + 2) = framePlain body := by
  rw [frameBytes, List.take_left' (framePlain_length body)]

theorem frameBytes_drop_plain (body : List Byte) : (frameBytes body).drop (body.length + 2) = crcBytes (framePlain body) := by
  rw [frameBytes, List.drop_left' (framePlain_length body)]

theorem frameBytes_body (body : List Byte) : ((frameBytes body).drop 2).take body.length = body := by
  rw [frameBytes, framePlain, List.append_assoc, List.drop_left' (bigEndian_length 2 _), List.take_left]

theorem escapeAll_cons (b : Byte) (bs : List Byte) : escapeAll (b :: bs) = escapeOne b ++ escapeAll bs :=
  List.flatMap_cons

/-! ### The round trip of a frame (R151) -/

section

variable {largest : Nat} {body : List Byte} (hmin : 2 ≤ body.length) (hmax : body.length ≤ largest)
  (hfit : body.length ≤ 65535)
include hmin hmax hfit

/-- A byte of a frame that follows the bytes taken is taken; the last completes the body (R151, R152). -/
theorem takeByte_frameBytes {taken rest : List Byte} {b : Byte} (h : frameBytes body = taken ++ b :: rest) :
    takeByte largest taken b =
      if rest = [] then (.hunting, .complete body) else (.receiving (taken ++ [b]) false, .nothing) := by
  obtain ⟨hfew, hmany⟩ := takenAs_takeByte largest taken b
  have hnow : frameBytes body = (taken ++ [b]) ++ rest := by rw [h, List.append_assoc]; rfl
  generalize taken ++ [b] = now at *
  have hlength : now.length + rest.length = body.length + 4 := by
    rw [← List.length_append, ← hnow, frameBytes_length]
  have hrest : rest = [] ↔ body.length + 4 ≤ now.length := by
    rw [← List.length_eq_zero_iff]
    omega
  by_cases hshort : now.length < 2
  · rw [hfew hshort, if_neg fun hend => by have := hrest.mp hend; omega]
  · have hlen : numberOf (now.take 2) = body.length := by
      rw [← List.take_append_of_le_length (l₂ := rest) (by omega), ← hnow, frameBytes_take_length,
        numberOf_bigEndian_two (by omega)]
    obtain ⟨-, hrange⟩ := hmany (by omega)
    rw [hlen] at hrange
    obtain ⟨hmore, hall⟩ := hrange hmin hmax
    by_cases hend : rest = []
    · obtain ⟨hgood, -⟩ := hall (hrest.mp hend)
      rw [hend, List.append_nil] at hnow
      rw [if_pos hend, hgood (by rw [← hnow, frameBytes_take_plain, frameBytes_drop_plain]; rfl), ← hnow, frameBytes_body]
    · rw [if_neg hend]
      exact hmore (Nat.lt_of_not_le fun hall => hend (hrest.mpr hall))

/-- The escaped bytes of a frame from any place in it complete its body (R151). -/
theorem hearAll_escapeAll {todo : List Byte} : ∀ {taken : List Byte}, frameBytes body = taken ++ todo → todo ≠ [] →
    Receiver.hearAll largest (.receiving taken false) ((escapeAll todo).map .byte) = (.hunting, .complete body) := by
  induction todo with
  | nil => exact fun _ hne => absurd rfl hne
  | cons b rest ih =>
    intro taken h _
    rw [escapeAll_cons, List.map_append, hearAll_escapeOne, takeByte_frameBytes hmin hmax hfit h]
    by_cases hrest : rest = []
    · rw [if_pos hrest]
      rfl
    · rw [if_neg hrest]
      exact ih (by rw [h, List.append_assoc]; rfl) hrest

end

/-- What a receiver has heard of characters in a row is what it goes on from. -/
theorem hearAll_append (largest : Nat) (before rest : List LineChar) : ∀ r : Receiver,
    r.hearAll largest (before ++ rest) = goOn largest (r.hearAll largest before) rest := by
  induction before with
  | nil => exact fun _ => rfl
  | cons c cs ih =>
    intro r
    rw [List.cons_append, hearAll_cons, hearAll_cons]
    rcases r.hear largest c with ⟨r', heard⟩
    cases heard with
    | nothing => exact ih r'
    | bad => rfl
    | complete body => rfl

/-- Characters that begin as a byte's do: they go on past that byte, or none is there yet, or the escape byte alone of a byte
that is sent escaped (R151). -/
theorem escapeOne_cut {b : Byte} {after before rest : List LineChar}
    (h : (escapeOne b).map LineChar.byte ++ after = before ++ rest) :
    (∃ before', before = (escapeOne b).map .byte ++ before' ∧ after = before' ++ rest) ∨ before = [] ∨
      (before = [.byte escapeByte] ∧ (b = startMarker ∨ b = escapeByte)) := by
  rcases List.append_eq_append_iff.mp h with hlong | ⟨cut, hcut, hrest⟩
  · exact Or.inl hlong
  · have hwhole : cut = [] → ∃ before', before = (escapeOne b).map .byte ++ before' ∧ after = before' ++ rest := by
      rintro rfl
      exact ⟨[], by rw [hcut, List.append_nil, List.append_nil], hrest.symm⟩
    cases before with
    | nil => exact Or.inr (Or.inl rfl)
    | cons c before' =>
      by_cases hb : b = startMarker ∨ b = escapeByte
      · have hsent : escapeOne b = [escapeByte, b ^^^ 32#8] := if_pos hb
        rw [hsent] at hcut
        cases before' with
        | nil => exact Or.inr (Or.inr ⟨congrArg (fun x => [x]) (List.cons.inj hcut).1.symm, hb⟩)
        | cons d before' =>
          refine Or.inl (hwhole (List.eq_nil_of_length_eq_zero ?_))
          have hlength := congrArg List.length hcut
          simp only [List.map_cons, List.map_nil, List.length_append, List.length_cons, List.length_nil] at hlength
          omega
      · have hsent : escapeOne b = [b] := if_neg hb
        rw [hsent] at hcut
        refine Or.inl (hwhole (List.eq_nil_of_length_eq_zero ?_))
        have hlength := congrArg List.length hcut
        simp only [List.map_cons, List.map_nil, List.length_append, List.length_cons, List.length_nil] at hlength
        omega

section

variable {largest : Nat} {body : List Byte} (hmin : 2 ≤ body.length) (hmax : body.length ≤ largest)
  (hfit : body.length ≤ 65535)
include hmin hmax hfit

/-- A receiver that has heard some of a frame's bytes and not all has made nothing known and holds the frame's beginning
(R151). -/
theorem begins_of_hearAll {rest : List LineChar} (hrest : rest ≠ []) {todo : List Byte} :
    ∀ {taken : List Byte} {before : List LineChar}, frameBytes body = taken ++ todo →
      (escapeAll todo).map LineChar.byte = before ++ rest →
      ∃ rx, Receiver.hearAll largest (.receiving taken false) before = (rx, .nothing) ∧ rx.begins body = true := by
  induction todo with
  | nil => exact fun _ hline => absurd (List.append_eq_nil_iff.mp hline.symm).2 hrest
  | cons b todo ih =>
    intro taken before h hline
    rw [escapeAll_cons, List.map_append] at hline
    rcases escapeOne_cut hline with ⟨before', rfl, hafter⟩ | rfl | ⟨rfl, hb⟩
    · have htodo : todo ≠ [] := by
        rintro rfl
        exact hrest (List.append_eq_nil_iff.mp hafter.symm).2
      rw [hearAll_escapeOne, takeByte_frameBytes hmin hmax hfit h, if_neg htodo]
      exact ih (by rw [h, List.append_assoc]; rfl) hafter
    · exact ⟨.receiving taken false, rfl, (begins_iff _ _ _).mpr ⟨b, todo, h, nofun⟩⟩
    · exact ⟨.receiving taken true, rfl, (begins_iff _ _ _).mpr ⟨b, todo, h, fun _ => hb⟩⟩

/-- The bytes of a frame, heard from HUNTING, complete its body (R151). -/
theorem hearAll_frameOf : Receiver.hearAll largest .hunting ((frameOf body).map .byte) = (.hunting, .complete body) :=
  hearAll_escapeAll (taken := []) hmin hmax hfit rfl nofun

/-- A frame's bytes cut in two: what is heard of the first part is the frame's beginning, and the second completes the body. -/
theorem hearAll_frameOf_cut {before rest : List LineChar} (hline : (frameOf body).map LineChar.byte = before ++ rest)
    (hbefore : before ≠ []) (hrest : rest ≠ []) :
    ∃ rx, Receiver.hearAll largest .hunting before = (rx, .nothing) ∧ rx.begins body = true ∧
      rx.hearAll largest rest = (.hunting, .complete body) := by
  match before, hline with
  | c :: before, hline =>
    rw [frameOf, List.map_cons, List.cons_append, List.cons.injEq] at hline
    obtain ⟨rfl, hline⟩ := hline
    obtain ⟨rx, hheard, hbegins⟩ := begins_of_hearAll (taken := []) hmin hmax hfit hrest rfl hline
    refine ⟨rx, hheard, hbegins, ?_⟩
    have hall := hearAll_escapeAll (taken := []) (todo := frameBytes body) hmin hmax hfit rfl nofun
    rw [hline, hearAll_append, hheard] at hall
    exact hall

end

/-- A request's frame spells it by its kind, a frame of another kind spells UNKNOWN_KIND, and no frame carries an event
(R154, R174). -/
theorem decodeBody_of_frame (i : Instr) : Laws.Frames.Statement i := by
  cases i with
  | unknownKind l corr kind p => exact Laws.Frames.unknownKind l corr kind p
  | _ =>
    intro l body _ hframe
    cases hframe <;> rfl

/-- Settles O8: the layouts, the line bytes, the CRC's check value, the round trip whole and in two parts, and the command that
a frame spells. -/
theorem frameRoundTrip : Obligations.FrameRoundTrip :=
  ⟨⟨numbersRead, fieldValues, codeValues, requestBodies, messagesLaidOut⟩, fun _ => rfl, by decide +kernel,
    fun largest body hmin hmax hfit => ⟨hearAll_frameOf hmin hmax hfit,
      fun before rest hline hbefore hrest => hearAll_frameOf_cut hmin hmax hfit hline hbefore hrest⟩,
    fun i l body hwf hframe => decodeBody_of_frame i l body hwf hframe⟩

end Sys2Proof.Machine
end

section
/-! The events of the links (R72, R136, R151 to R154, R158 to R160): the reset of a link block by block, breaks, bad frames and
frames of a kind the part does not take. -/

namespace Sys2Proof.Machine

/-! ### The reset of a link (R72, R136, R160) -/

section

variable {s t : State} {l : LinkId}

/-- A link that was reset still is so when its receiver, its line or its response queue is then written. -/
theorem LinkResetEffects.setLink (h : LinkResetEffects s l t) {k : Link} (hsending : k.sending = none)
    (hpointer : k.pointer = (t.link l).pointer) : LinkResetEffects s l (t.setLink l k) where
  sending := by rw [State.link_setLink, hsending]
  pointer := by rw [State.link_setLink, hpointer, h.pointer]
  others m hm := by rw [State.link_setLink_ne _ _ (Ne.symm hm), h.others m hm]
  lane := h.lane
  lanes := h.lanes
  rotation := h.rotation
  discarded := h.discarded
  engine := h.engine
  streams := h.streams
  status := h.status
  kept := h.kept

theorem LinkResetEffects.answer (h : LinkResetEffects s l t) (corr : Byte) (code : Code) :
    LinkResetEffects s l (t.answer l corr code) :=
  h.setLink (k := (t.link l).push _) h.sending rfl

/-- What was written to the link before its reset does not matter to it, but for its pointer. -/
theorem LinkResetEffects.of_setLink {k : Link} (h : LinkResetEffects (s.setLink l k) l t)
    (hpointer : k.pointer = (s.link l).pointer) : LinkResetEffects s l t where
  sending := h.sending
  pointer := by rw [h.pointer, State.link_setLink, hpointer]
  others m hm := by rw [h.others m hm, State.link_setLink_ne _ _ (Ne.symm hm)]
  lane := h.lane
  lanes := h.lanes
  rotation := h.rotation
  discarded := h.discarded
  engine := h.engine
  streams := h.streams
  status := h.status
  kept := h.kept

/-- A stream of the link that was reset is closed, another stays (R136). -/
theorem closedOn_eq (d : RouteDispatch) (l : LinkId) :
    d.closedOn l = if d.stream.map (·.link) = some l then { d with stream := none } else d := by
  unfold RouteDispatch.closedOn
  cases d.stream with
  | none => rfl
  | some st => simp

theorem resetBlocks_links (s : State) (l : LinkId) : (s.resetBlocks l).links = s.links := by
  cases l <;> rfl

theorem resetLink_lane_engine (s : State) (i : LaneNo) (rx : Receiver) :
    (s.resetLink (.lane i) rx).engine = s.engine.discard i := rfl

theorem resetLink_partner_route (hl : isPartner l = true) (rx : Receiver) (r : RouteNo) :
    (s.resetLink l rx).route r = (s.route r).closedOn l := by
  cases l with
  | lane i => cases hl
  | dispatch => exact Vec.get_gen _ _
  | service => exact Vec.get_gen _ _

/-- The reset block by block: a lane's queue and its wrap's answer, a partner link's streams, the service port's setup sequence
(R72, R136, R160). -/
theorem resetLink_effects (s : State) (l : LinkId) (rx : Receiver) : LinkResetEffects s l (s.resetLink l rx) where
  sending := by rw [State.resetLink, State.link_setLink, Link.reset]
  pointer := by rw [State.resetLink, State.link_setLink, Link.reset, State.link, resetBlocks_links, State.link]
  others m hm := by rw [State.resetLink, State.link_setLink_ne _ _ (Ne.symm hm), State.link, resetBlocks_links, State.link]
  lane i hi := by
    subst hi
    exact State.lane_setLane s i _
  lanes j hj := by
    cases l with
    | lane i => exact State.lane_setLane_ne s _ fun h => hj (congrArg _ h)
    | dispatch => rfl
    | service => rfl
  rotation := by cases l <;> rfl
  discarded i k w hi hbusy := by
    subst hi
    rw [resetLink_lane_engine, hbusy, Engine.discard]
    split <;> rfl
  engine h := by
    cases l with
    | lane i =>
      have hidle : s.engine = .idle := h.resolve_left Bool.false_ne_true
      rw [resetLink_lane_engine, hidle]
      rfl
    | dispatch => rfl
    | service => rfl
  streams r := by
    by_cases hl : isPartner l = true
    · simp only [resetLink_partner_route hl, closedOn_eq, hl, and_true]
    · have hkept : (s.resetLink l rx).route r = s.route r := by
        cases l with
        | lane i => rfl
        | dispatch => exact absurd rfl hl
        | service => exact absurd rfl hl
      rw [hkept, if_neg fun h => hl h.2]
  status := by cases l <;> rfl
  kept := by cases l <;> exact ⟨rfl, rfl, rfl, rfl, rfl, rfl, rfl⟩

theorem resetLink_receiver (rx : Receiver) : ((s.resetLink l rx).link l).receiver = rx := by
  rw [State.resetLink, State.link_setLink, Link.reset]

theorem resetLink_queue (rx : Receiver) : ((s.resetLink l rx).link l).queue = [] := by
  rw [State.resetLink, State.link_setLink, Link.reset]

end

/-! ### LINK RESET, BREAK and BREAK_END (R158, R159) -/

section

variable {s : State} {l : LinkId} {corr : Byte} {p : List Byte}

theorem exec_linkReset_taken (hon : s.supply = .on) (hrx : (s.link l).receiver ≠ .inBreak)
    (hfits : p.length + 2 ≤ largestBody l) :
    exec (.linkReset l corr p) s = .next ((s.resetLink l .hunting).answer l corr .done) := by
  have hawake : (s.awake && (s.link l).receiver != .inBreak) = true := by simp [State.awake, hon, hrx]
  exact congrArg _ ((if_pos hawake).trans (if_neg (Nat.not_lt.mpr hfits)))

theorem exec_linkReset_deaf (h : s.supply ≠ .on ∨ (s.link l).receiver = .inBreak) :
    exec (.linkReset l corr p) s = .next s := by
  have hdeaf : ¬(s.awake && (s.link l).receiver != .inBreak) = true := by
    rcases h with h | h <;> simp [State.awake, h]
  exact congrArg _ (if_neg hdeaf)

/-- A LINK RESET whose body is too large goes the way of any such frame (log 12). -/
theorem exec_linkReset_oversized {b : State} (hon : s.supply = .on) (hrx : (s.link l).receiver ≠ .inBreak)
    (hlarge : largestBody l < p.length + 2)
    (harrives : frameArrives l (0x0F#8 :: corr :: p) s = frameEnds l (p.length + 2) b) :
    exec (.linkReset l corr p) s =
      .next (if (b.link l).queue.length < 32 then b.send l frameBadAnswer else b) := by
  have hawake : (s.awake && (s.link l).receiver != .inBreak) = true := by simp [State.awake, hon, hrx]
  refine congrArg _ ((if_pos hawake).trans ((if_pos hlarge).trans ?_))
  rw [harrives, frameEnds_oversized hlarge]

theorem exec_lineBreak_taken (hon : s.supply = .on) (hrx : (s.link l).receiver ≠ .inBreak) :
    exec (.lineBreak l) s = .next ((s.setLink l { s.link l with low := true }).resetLink l .inBreak) := by
  have hawake : (s.awake && (s.link l).receiver != .inBreak) = true := by simp [State.awake, hon, hrx]
  exact congrArg _ (if_pos hawake)

/-- Without supply and in break a BREAK writes the line's level alone (R158). -/
theorem exec_lineBreak_deaf (h : s.supply ≠ .on ∨ (s.link l).receiver = .inBreak) :
    exec (.lineBreak l) s = .next (s.setLink l { s.link l with low := true }) := by
  have hdeaf : ¬(s.awake && (s.link l).receiver != .inBreak) = true := by
    rcases h with h | h <;> simp [State.awake, h]
  exact congrArg _ (if_neg hdeaf)

theorem exec_lineBreakEnd (s : State) (l : LinkId) : exec (.lineBreakEnd l) s =
    .next (s.setLink l { s.link l with low := false, receiver := (s.link l).receiver.released }) := rfl

theorem released_of_ne {rx : Receiver} (h : rx ≠ .inBreak) : rx.released = rx := by
  cases rx with
  | hunting => rfl
  | receiving taken esc => rfl
  | inBreak => exact absurd rfl h

end

/-- Settles O9: each event by whether the link hears it. -/
theorem linkResets : Obligations.LinkResets := by
  refine ⟨fun l corr p s => ⟨fun hon hrx hfits => ?taken, exec_linkReset_deaf, fun b hon hlarge hb => ?oversized⟩,
    fun l s => ⟨fun hon hrx => ?broken, exec_lineBreak_deaf⟩, fun l s => ⟨fun hrx => ?released, fun hrx => ?kept⟩⟩
  case taken =>
    refine ⟨_, exec_linkReset_taken hon hrx hfits, (resetLink_effects s l .hunting).answer corr .done, ?_, ?_⟩
    · rw [State.link_answer, Link.push, resetLink_receiver]
    · rw [State.link_answer, Link.push, resetLink_queue]
      rfl
  case oversized =>
    rcases hb with ⟨hrx, rfl⟩ | ⟨hbegins, rfl⟩ | ⟨⟨taken, esc, hrx⟩, hother, rfl⟩
    · exact exec_linkReset_oversized hon (by simp [hrx]) hlarge (frameArrives_hunting hon hrx)
    · obtain ⟨taken, esc, hrx⟩ := receiving_of_begins hbegins
      exact exec_linkReset_oversized hon (by simp [hrx]) hlarge (frameArrives_begun hon hbegins)
    · exact exec_linkReset_oversized hon (by simp [hrx]) hlarge (frameArrives_cut hon hrx hother)
  case broken =>
    exact ⟨_, exec_lineBreak_taken hon hrx, (resetLink_effects _ l .inBreak).of_setLink rfl, resetLink_receiver _,
      resetLink_queue _⟩
  case released =>
    rw [exec_lineBreakEnd, hrx, Receiver.released]
  case kept =>
    rw [exec_lineBreakEnd, released_of_ne hrx]

/-! ### Bad frames and unknown kinds (R151 to R154) -/

/-- Characters at which the receiver finds a frame bad are answered as the response queue allows (R153, R156). -/
theorem exec_frameBad_bad {l : LinkId} {chars : List LineChar} {rx : Receiver} {s : State} (hon : s.supply = .on)
    (h : (s.link l).receiver.hearAll (largestBody l) chars = (rx, .bad)) :
    exec (.frameBad l chars) s = .next (s.setLink l { (s.link l).reportBad with receiver := rx }) := by
  have hawake : s.awake = true := by simp [State.awake, hon]
  refine congrArg _ ((if_pos hawake).trans ?_)
  rw [h]

theorem exec_unknownKind_heard {l : LinkId} {corr kind : Byte} {p : List Byte} {s : State} (hears : s.Hears l p.length)
    (hkind : kind ∉ requestKinds) : exec (.unknownKind l corr kind p) s = .next (s.answer l corr .unknownKind) := by
  have hother : ¬requestKinds.contains kind = true := by simpa using hkind
  refine congrArg _ ((if_neg hother).trans ?_)
  rw [frameArrives_of_hears hears (body := kind :: corr :: p) rfl]

/-- Settles O10: the receiver's characters one by one, then the two answers. -/
theorem badFramesAnswered : Obligations.BadFramesAnswered := by
  refine ⟨fun largest => ⟨fun b => ?_, rfl, fun taken esc => ⟨rfl, rfl, fun b hmarker h94 h93 => ?_, rfl,
    takenAs_takeByte largest taken 126#8, takenAs_takeByte largest taken 125#8, fun b hmarker hescape => ?_⟩⟩,
    fun l chars rx s hon hheard => ?_, fun l corr kind p s hears hkind => exec_unknownKind_heard hears hkind⟩
  · exact (apply_ite (fun r => (r, Heard.nothing)) _ _ _).symm
  · exact (if_neg hmarker).trans ((if_pos rfl).trans ((if_neg h94).trans (if_neg h93)))
  · have htaken : (Receiver.receiving taken false).hear largest (.byte b) = takeByte largest taken b :=
      (if_neg hmarker).trans ((if_neg Bool.false_ne_true).trans (if_neg hescape))
    rw [htaken]
    exact takenAs_takeByte largest taken b
  · rw [exec_frameBad_bad hon hheard, reportBad_eq]
    split <;> rfl

end Sys2Proof.Machine
end

section
/-! The setup state and the fault log (10_setup_status_and_retention.md, R162 to R166, R169): every step keeps the prior state
and the staged configuration to SETUP, and the fault log at 16 entries. -/

namespace Sys2Proof.Machine

/-! ### The Status and Setup Unit in order (R162, R163, R169) -/

/-- The Status and Setup Unit in order; the invariant reads no other block. -/
structure StatusUnit.Ok (u : StatusUnit) : Prop where
  outside : u.part ≠ .setup → u.prior = none ∧ u.staged = none
  inside  : u.part = .setup → u.prior.isSome
  log     : u.log.length ≤ Config.logLimit
  staged  : ∀ g, u.staged = some g → 1 ≤ g.count ∧ g.count ≤ 4 ∧ g.routes.length ≤ g.count

theorem setupOk_iff (s : State) : s.SetupOk ↔ s.status.Ok :=
  ⟨fun h => ⟨h.outside, h.inside, h.log, h.staged⟩, fun h => ⟨h.outside, h.inside, h.log, h.staged⟩⟩

/-- Outside SETUP only the fault log is to be kept. -/
theorem StatusUnit.ok_outside {u : StatusUnit} (hp : u.part ≠ .setup) (hprior : u.prior = none) (hstaged : u.staged = none)
    (hlog : u.log.length ≤ Config.logLimit) : u.Ok :=
  ⟨fun _ => ⟨hprior, hstaged⟩, fun h => absurd h hp, hlog, by simp [hstaged]⟩

theorem StatusUnit.blank_ok : StatusUnit.blank.Ok := ok_outside nofun rfl rfl (Nat.zero_le _)

/-- A full log loses an entry before it gains one (R169). -/
theorem logWith_length_le {log : List FaultEntry} (h : log.length ≤ Config.logLimit) (entry : FaultEntry) :
    (logWith log entry).length ≤ Config.logLimit := by
  unfold logWith
  split
  · next hfull =>
    rw [List.length_append, List.length_drop, List.length_singleton, Nat.sub_add_cancel (Nat.le_trans (by decide) hfull)]
    exact h
  · next hroom =>
    rw [List.length_append]
    exact Nat.lt_of_not_le hroom

/-- The prior states are no SETUP. -/
theorem PriorState.part_ne_setup (prior : Option PriorState) : (prior.map PriorState.part).getD .blank ≠ .setup := by
  rcases prior with _ | _ | _ <;> nofun

/-- An abandoned sequence leaves the part outside SETUP with nothing of the sequence (R166). -/
theorem StatusUnit.Ok.abandoned {u : StatusUnit} (h : u.Ok) : u.abandoned.Ok := by
  unfold StatusUnit.abandoned
  split
  · exact ok_outside (PriorState.part_ne_setup u.prior) rfl rfl h.log
  · exact h

theorem StatusUnit.Ok.raise {u : StatusUnit} (h : u.Ok) (e : EventFlag) : (u.raise e).Ok :=
  ⟨h.outside, h.inside, h.log, h.staged⟩

/-- Loss of supply keeps the part state with its prior state, and drops the staged configuration and the log (R162, R169). -/
theorem StatusUnit.Ok.lapse {u : StatusUnit} (h : u.Ok) : u.lapse.Ok :=
  ⟨fun hp => ⟨(h.outside hp).1, rfl⟩, h.inside, Nat.zero_le _, nofun⟩

/-- A sequence opened for 1 to 4 routes has its prior state and no route staged yet (R163). -/
theorem StatusUnit.Ok.opened {u : StatusUnit} (h : u.Ok) {n : Nat} (hn : 1 ≤ n ∧ n ≤ 4) (flags : Byte) (nearDue : Bool) :
    (u.opened n flags nearDue).Ok := by
  refine ⟨fun hp => absurd rfl hp, fun _ => rfl, h.log, fun g hg => ?_⟩
  cases hg
  exact ⟨hn.1, hn.2, Nat.zero_le _⟩

/-- A staged configuration that expects a route has room for it (R162, R164). -/
theorem StatusUnit.Ok.staging {u : StatusUnit} (h : u.Ok) {g : Staged} (hp : u.part = .setup) (hg : u.staged = some g)
    {n : Nat} (hn : g.expects = some n) (c : RouteConfig) : StatusUnit.Ok { u with staged := some (g.add c) } := by
  refine ⟨fun hout => absurd hp hout, h.inside, h.log, fun g' hg' => ?_⟩
  cases hg'
  obtain ⟨hone, hfour, -⟩ := h.staged g hg
  unfold Staged.expects at hn
  split at hn
  · next hlt => exact ⟨hone, hfour, by simpa [Staged.add] using hlt⟩
  · cases hn

/-! ### Steps that leave the part state and the sequence -/

/-- A step that leaves part state, prior state and staged configuration, and at most 16 entries in the fault log. -/
structure SetupKept (s t : State) : Prop where
  part   : t.status.part = s.status.part
  prior  : t.status.prior = s.status.prior
  staged : t.status.staged = s.status.staged
  log    : s.status.log.length ≤ Config.logLimit → t.status.log.length ≤ Config.logLimit

theorem SetupKept.refl (s : State) : SetupKept s s := ⟨rfl, rfl, rfl, id⟩

theorem SetupKept.trans {s t u : State} (h : SetupKept s t) (k : SetupKept t u) : SetupKept s u :=
  ⟨k.part.trans h.part, k.prior.trans h.prior, k.staged.trans h.staged, k.log ∘ h.log⟩

/-- The usual case: the unit is the same. -/
theorem SetupKept.of_eq {s t : State} (h : t.status = s.status) : SetupKept s t := by
  refine ⟨?_, ?_, ?_, ?_⟩ <;> rw [h]
  exact id

theorem State.SetupOk.kept {s t : State} (h : s.SetupOk) (k : SetupKept s t) : t.SetupOk := by
  refine ⟨fun hp => ?_, fun hp => ?_, k.log h.log, fun g hg => ?_⟩
  · rw [k.prior, k.staged]
    exact h.outside (k.part ▸ hp)
  · rw [k.prior]
    exact h.inside (k.part.symm.trans hp)
  · exact h.staged g (k.staged.symm.trans hg)

/-- A state with a unit in order is in order. -/
theorem setupOk_of_status {t : State} (h : t.status.Ok) : t.SetupOk := (setupOk_iff t).mpr h

theorem State.SetupOk.unit {s : State} (h : s.SetupOk) : s.status.Ok := (setupOk_iff s).mp h

theorem setLink_setupKept (s : State) (l : LinkId) (k : Link) : SetupKept s (s.setLink l k) := .of_eq rfl

theorem answer_setupKept (s : State) (l : LinkId) (corr : Byte) (code : Code) (reply : Reply := .bare) :
    SetupKept s (s.answer l corr code reply) := .of_eq rfl

theorem logFault_setupKept (s : State) (code : FaultCode) (unit : Nat) : SetupKept s (s.logFault code unit) :=
  ⟨rfl, rfl, rfl, fun h => logWith_length_le h _⟩

theorem State.SetupOk.answer {s : State} (h : s.SetupOk) (l : LinkId) (corr : Byte) (code : Code)
    (reply : Reply := .bare) : (s.answer l corr code reply).SetupOk := h.kept (answer_setupKept s l corr code reply)

theorem State.SetupOk.abandon {s : State} (h : s.SetupOk) : s.abandon.SetupOk := setupOk_of_status h.unit.abandoned

/-! ### Closes, offers, acknowledgements, transmitters, the wrap: at most an event raised and logged -/

theorem deferClose_setupKept (s : State) (r : RouteNo) (why : CloseReason) : SetupKept s (s.deferClose r why) :=
  ⟨rfl, rfl, rfl, fun h => logWith_length_le h _⟩

theorem requestClose_setupKept (s : State) (r : RouteNo) (why : CloseReason) : SetupKept s (s.requestClose r why).1 := by
  rcases requestClose_cases s r why with ⟨p, -, e⟩ | ⟨-, -, e⟩ | ⟨-, -, -, e⟩ | ⟨-, -, -, e⟩ <;> rw [e]
  · exact .refl s
  · exact deferClose_setupKept s r why
  · exact .of_eq rfl
  · exact .of_eq rfl

theorem askClose_setupKept (s : State) (r : RouteNo) : SetupKept s (s.askClose r) := by
  unfold State.askClose
  split
  · exact requestClose_setupKept s r _
  · exact .refl s

theorem settleDeferred_setupKept (s : State) (r : RouteNo) : SetupKept s (s.settleDeferred r) := by
  rcases settleDeferred_cases s r with e | ⟨p, -, -, e⟩ | ⟨p, -, -, -, e⟩ <;> rw [e]
  · exact .refl s
  · exact .of_eq rfl
  · exact .of_eq rfl

theorem dueClose_setupKept (s : State) (r : RouteNo) (last : Bool) : SetupKept s (s.dueClose r last) := by
  rcases dueClose_cases s r last with e | ⟨why, -, e⟩ | e | e <;> rw [e]
  · exact .refl s
  · exact .of_eq rfl
  · exact .of_eq rfl
  · have hfull : SetupKept s (s.setQueue r (s.queue r).setFull) := .of_eq rfl
    exact hfull.trans (deferClose_setupKept _ r _)

theorem offer_setupKept {s s' : State} {r : RouteNo} {c : RouteConfig} {corr : Byte} {m : Message}
    (ho : s.offer r c corr = some (s', m)) : SetupKept s s' := by
  obtain ⟨-, hstatus, -⟩ := offer_frame ho
  exact .of_eq hstatus

theorem takeDown_setupKept (s : State) (r : RouteNo) (why : DownReason) (cause : EndCause) :
    SetupKept s (s.takeDown r why cause) := by
  cases hst : (s.route r).stream with
  | none =>
    rw [takeDown_closed why cause hst]
    exact .of_eq rfl
  | some st =>
    rw [takeDown_open why cause hst]
    exact .of_eq rfl

theorem acknowledge_setupKept (s : State) (r : RouteNo) (c : RouteConfig) (id : Identity) :
    SetupKept s (s.acknowledge r c id) := by
  unfold State.acknowledge
  have hroute : SetupKept s (s.setRoute r ((s.route r).unlisting c id)) := .of_eq rfl
  refine hroute.trans ?_
  generalize s.setRoute r ((s.route r).unlisting c id) = b
  rcases ackAtQueues_cases b r id with e | ⟨n, rec, -, -, -, e⟩ | ⟨cl, -, -, e⟩ <;> rw [e]
  · exact .refl b
  · exact .of_eq rfl
  · have hfree : SetupKept b (b.setQueue r { b.queue r with buffer := none }) := .of_eq rfl
    exact hfree.trans (settleDeferred_setupKept _ r)

theorem serveStream_setupKept (s : State) (l : LinkId) (r : RouteNo) : SetupKept s (s.serveStream l r) := by
  unfold State.serveStream
  split
  · split
    · next ho =>
      refine (offer_setupKept ho).trans ?_
      unfold State.endByCount
      dsimp only
      split <;> exact .of_eq rfl
    · exact .refl s
  · exact .refl s

theorem nextMessage_setupKept (s : State) (l : LinkId) : SetupKept s (s.nextMessage l) := by
  unfold State.nextMessage
  split
  · exact setLink_setupKept s l _
  · split
    · exact serveStream_setupKept s l _
    · exact .refl s

theorem voidRecord_status (s : State) (r : RouteNo) (till : Nat) (h : HistoryEntry) :
    (s.voidRecord r till h).status = s.status := by
  unfold State.voidRecord
  split
  · split <;> rfl
  · rfl

theorem withdraw_setupKept (s : State) (q : Request) (h : HistoryEntry) : SetupKept s (s.withdraw q h) := by
  have hvoid := SetupKept.of_eq (voidRecord_status s (s.term q.terminal).route q.till h)
  exact hvoid.trans ⟨rfl, rfl, rfl, id⟩

/-- A grant is answered, reserves a counter's position with its events, or withdraws (R84, R85, R92). -/
theorem settleGrant_setupKept (s : State) (q : Request) (v : Verdict) : SetupKept s (s.settleGrant q v) := by
  cases v with
  | refused code => exact answer_setupKept s _ _ _ _
  | duplicate h => exact answer_setupKept s _ _ _ _
  | withdraw h => exact withdraw_setupKept s q h
  | wrap p => exact ⟨rfl, rfl, rfl, id⟩

theorem completeWrap_setupKept (s : State) (k : ReservationKept) (w : ReservationWork) :
    SetupKept s (s.completeWrap k w) := by
  refine ⟨?_, ?_, ?_, ?_⟩ <;> rw [completeWrap_status]
  exacts [rfl, rfl, rfl, id]

/-- A reset of the service port abandons an open sequence; that of another link leaves the unit (R160, R166). -/
theorem resetLink_setupOk {s : State} (h : s.SetupOk) (l : LinkId) (rx : Receiver) : (s.resetLink l rx).SetupOk := by
  cases l with
  | lane i => exact h.kept (.of_eq rfl)
  | dispatch => exact h.kept (.of_eq rfl)
  | service => exact setupOk_of_status h.unit.abandoned

/-! ### Acts that leave the sequence

Each branch of such an act is a refusal, or an update of other blocks with at most an event raised. -/

section

variable (l : LinkId) (corr b : Byte) (t : TerminalNo) (r : RouteNo) (c : RouteConfig) (s : State)

theorem wrapRequestAct_setupKept (kind : WrapKind) (i : LaneNo) (p : List Byte) :
    SetupKept s (wrapRequestAct kind i corr p s) := by
  unfold wrapRequestAct
  repeat' split
  all_goals exact .of_eq rfl

theorem laneHoldAct_setupKept (held : Bool) : SetupKept s (laneHoldAct held l corr b s) := by
  unfold laneHoldAct
  repeat' split
  all_goals exact .of_eq rfl

theorem enrolAct_setupKept (a : Place × Nat) : SetupKept s (enrolAct l corr t a s) := by
  unfold enrolAct
  repeat' split
  all_goals exact .of_eq rfl

theorem onEnrolled_setupKept {act : State → State} (hact : SetupKept s (act s)) :
    SetupKept s (onEnrolled l corr t act s) :=
  onEnrolled_keeps (SetupKept s) (fun code => answer_setupKept s l corr code) hact

theorem releaseTerminalAct_setupKept : SetupKept s (releaseTerminalAct l corr t s) := by
  refine onEnrolled_setupKept l corr t s ?_
  unfold releaseTerminalEnrolled
  split <;> exact .of_eq rfl

theorem moveAct_setupKept (p : Place) : SetupKept s (moveAct l corr t p s) := by
  refine onEnrolled_setupKept l corr t s ?_
  unfold moveEnrolled
  repeat' split
  all_goals exact .of_eq rfl

theorem terminalQueryAct_setupKept : SetupKept s (terminalQueryAct l corr b s) := by
  unfold terminalQueryAct
  split <;> exact answer_setupKept s _ _ _ _

theorem familyQueryAct_setupKept : SetupKept s (familyQueryAct l corr b s) := by
  unfold familyQueryAct
  split <;> exact answer_setupKept s _ _ _ _

theorem routeQueryAct_setupKept : SetupKept s (routeQueryAct l corr b s) := by
  unfold routeQueryAct
  repeat' split
  all_goals exact answer_setupKept s _ _ _ _

theorem setCeilingAct_setupKept (digits : List Byte) : SetupKept s (setCeilingAct l corr b digits s) := by
  unfold setCeilingAct
  repeat' split
  all_goals exact .of_eq rfl

theorem keyLoadAct_setupKept (a : LoadBytes) : SetupKept s (keyLoadAct l corr a s) := by
  unfold keyLoadAct keyLoadFamily
  repeat' split
  all_goals exact .of_eq rfl

theorem rollFamilyAct_setupKept : SetupKept s (rollFamilyAct l corr b s) := by
  unfold rollFamilyAct rollFamilyOn
  dsimp only
  repeat' split
  all_goals exact .of_eq rfl

theorem retireFamilyAct_setupKept : SetupKept s (retireFamilyAct l corr b s) := by
  unfold retireFamilyAct retireFamilyOn
  dsimp only
  repeat' split
  all_goals exact .of_eq rfl

theorem routeUpAct_setupKept : SetupKept s (routeUpAct l corr r c s) := by
  unfold routeUpAct
  dsimp only
  split <;> exact .of_eq rfl

theorem streamOpenAct_setupKept (n renew : Byte) : SetupKept s (streamOpenAct l corr n renew r c s) := by
  unfold streamOpenAct
  repeat' split
  all_goals exact .of_eq rfl

theorem setClockAct_setupKept (time : ClockTime) : SetupKept s (setClockAct l corr time s) := by
  unfold setClockAct
  repeat' split
  all_goals exact ⟨rfl, rfl, rfl, id⟩

theorem setCutoverAct_setupKept (a : Byte × Byte × Byte) : SetupKept s (setCutoverAct l corr a s) := by
  unfold setCutoverAct
  repeat' split
  all_goals exact ⟨rfl, rfl, rfl, id⟩

/-- FAULT READ takes an entry from the log (R169). -/
theorem faultReadAct_setupKept : SetupKept s (faultReadAct l corr s) := by
  have htaken : s.status.log.length ≤ Config.logLimit → s.status.log.tail.length ≤ Config.logLimit := fun h => by
    rw [List.length_tail]
    exact (Nat.sub_le _ _).trans h
  unfold faultReadAct
  dsimp only
  split <;> exact ⟨rfl, rfl, rfl, htaken⟩

theorem routeDownAct_setupKept : SetupKept s (routeDownAct l corr r c s) := by
  unfold routeDownAct
  dsimp only
  split
  · exact (takeDown_setupKept s r .command .routeDown).trans (answer_setupKept _ _ _ _)
  · exact .of_eq rfl

theorem pullOneAct_setupKept : SetupKept s (pullOneAct l corr r c s) := by
  unfold pullOneAct
  split
  · split
    · split
      · exact answer_setupKept s _ _ _
      · next ho => exact (offer_setupKept ho).trans (setLink_setupKept _ l _)
    · exact answer_setupKept s _ _ _
  · exact answer_setupKept s _ _ _

theorem pullBlockAct_setupKept (n : Byte) : SetupKept s (pullBlockAct l corr n r c s) := by
  unfold pullBlockAct
  split
  · have hrun := offerRun_keeps (SetupKept s) (r := r) (c := c) (corr := corr)
      (fun _ _ _ hb _ ho => hb.trans (offer_setupKept ho)) (blockCount n.toNat) s (.refl s)
    exact hrun.trans (setLink_setupKept _ l _)
  · exact answer_setupKept s _ _ _

theorem ackOneAct_setupKept (batch sq : Nat) : SetupKept s (ackOneAct l corr batch sq r c s) := by
  unfold ackOneAct
  split
  · exact (acknowledge_setupKept s r c _).trans (answer_setupKept _ _ _ _ _)
  · exact answer_setupKept s _ _ _

theorem ackOldestAct_setupKept : SetupKept s (ackOldestAct l corr r c s) := by
  unfold ackOldestAct
  split
  · exact answer_setupKept s _ _ _
  · exact (acknowledge_setupKept s r c _).trans (answer_setupKept _ _ _ _ _)

theorem ackThroughAct_setupKept (batch sq : Nat) : SetupKept s (ackThroughAct l corr batch sq r c s) := by
  have hacked := acknowledgeAll_keeps (SetupKept s) (r := r) (c := c)
    (fun _ id hb => hb.trans (acknowledge_setupKept _ r c id)) (s.covered r batch sq) s (.refl s)
  exact hacked.trans (answer_setupKept _ _ _ _ _)

theorem closeBatchAct_setupKept : SetupKept s (closeBatchAct l corr b s) := by
  unfold closeBatchAct
  split
  · split
    · exact answer_setupKept s _ _ _
    · split
      · split
        · exact (requestClose_setupKept s _ .manual).trans (answer_setupKept _ _ _ _ _)
        · exact answer_setupKept s _ _ _
      · exact answer_setupKept s _ _ _
  · exact answer_setupKept s _ _ _

end

/-! ### The setup sequence (R163 to R166) -/

section

variable {s : State} (hs : s.SetupOk) (l : LinkId) (corr : Byte)
include hs

theorem setupBeginAct_setupOk (a : Byte × Byte) : (setupBeginAct l corr a s).SetupOk := by
  unfold setupBeginAct
  split
  · exact hs.abandon.answer _ _ _
  · split
    · exact hs.answer _ _ _
    · next n hn =>
      split
      · exact hs.answer _ _ _
      · exact setupOk_of_status (hs.unit.opened (byteIn_range hn) a.2 _)

theorem routeDefineAct_setupOk (a : DefineBytes) : (routeDefineAct l corr a s).SetupOk := by
  unfold routeDefineAct
  split
  · next hp =>
    split
    · next g hg =>
      unfold routeDefineStaged
      split
      · next hn =>
        split
        · exact hs.abandon.answer _ _ _
        · next c _ => exact setupOk_of_status (hs.unit.staging hp hg hn c)
      · exact hs.abandon.answer _ _ _
    · exact hs.abandon.answer _ _ _
  · exact hs.answer _ _ _

theorem setupEndAct_setupOk : (setupEndAct l corr s).SetupOk := by
  unfold setupEndAct
  split
  · split
    · split
      · split
        · exact setupOk_of_status (StatusUnit.ok_outside nofun rfl rfl hs.log)
        · exact hs.abandon.answer _ _ _
      · exact hs.abandon.answer _ _ _
    · exact hs.abandon.answer _ _ _
  · exact hs.answer _ _ _

end

theorem eraseAct_setupOk (l : LinkId) (corr : Byte) (s : State) : (eraseAct l corr s).SetupOk :=
  setupOk_of_status StatusUnit.blank_ok

/-! ### Events -/

theorem frameArrives_setupKept (l : LinkId) (body : List Byte) (s : State) :
    (∃ t, frameArrives l body s = .gone t ∧ SetupKept s t) ∨ (∃ t, frameArrives l body s = .taken t ∧ SetupKept s t) :=
  frameArrives_keeps (SetupKept s) (.refl s) (fun b k hb => hb.trans (setLink_setupKept b l k)) body

section

variable (s : State)

theorem execFrameBad_setupKept (l : LinkId) (chars : List LineChar) :
    ∃ t, execFrameBad l chars s = .next t ∧ SetupKept s t := by
  refine ⟨_, rfl, ?_⟩
  repeat' split
  all_goals exact .of_eq rfl

theorem execUnknownKind_setupKept (l : LinkId) (corr kind : Byte) (p : List Byte) :
    ∃ t, execUnknownKind l corr kind p s = .next t ∧ SetupKept s t := by
  refine ⟨_, rfl, ?_⟩
  split
  · exact .refl s
  · rcases frameArrives_setupKept l (kind :: corr :: p) s with ⟨t, he, hk⟩ | ⟨t, he, hk⟩ <;> rw [he]
    · exact hk
    · exact hk.trans (answer_setupKept _ _ _ _)

theorem execGrant_setupKept : ∃ t, execGrant s = .next t ∧ SetupKept s t := by
  refine ⟨_, rfl, ?_⟩
  split
  · split
    · exact .refl s
    · next i _ =>
      split
      · exact .refl s
      · have htaken : SetupKept s { s with intake := s.intake.granted i } := .of_eq rfl
        exact htaken.trans (settleGrant_setupKept _ _ _)
  · exact .refl s

theorem execCompletion_setupKept : ∃ t, execCompletion s = .next t ∧ SetupKept s t := by
  refine ⟨_, rfl, ?_⟩
  split
  · split
    · next k w _ => exact (completeWrap_setupKept s k w).trans (dueClose_setupKept _ _ _)
    · exact .refl s
  · exact .refl s

theorem execLoadCompletion_setupKept (f : FamilyNo) : ∃ t, execLoadCompletion f s = .next t ∧ SetupKept s t := by
  refine ⟨_, rfl, ?_⟩
  split
  · split
    · unfold State.finishLoad
      dsimp only
      split <;> exact ⟨rfl, rfl, rfl, id⟩
    · exact .refl s
  · exact .refl s

theorem execRollCompletion_setupKept (f : FamilyNo) : ∃ t, execRollCompletion f s = .next t ∧ SetupKept s t := by
  refine ⟨_, rfl, ?_⟩
  split
  · split <;> exact ⟨rfl, rfl, rfl, id⟩
  · exact .refl s

theorem execStreamOffer_setupKept (l : LinkId) : ∃ t, execStreamOffer l s = .next t ∧ SetupKept s t := by
  refine ⟨_, rfl, ?_⟩
  split
  · exact nextMessage_setupKept s l
  · exact .refl s

theorem execTransmitComplete_setupKept (l : LinkId) : ∃ t, execTransmitComplete l s = .next t ∧ SetupKept s t := by
  refine ⟨_, rfl, ?_⟩
  split
  · exact (setLink_setupKept s l _).trans (nextMessage_setupKept _ l)
  · exact .refl s

theorem execAckTimerExpiry_setupKept (r : RouteNo) : ∃ t, execAckTimerExpiry r s = .next t ∧ SetupKept s t := by
  refine ⟨_, rfl, ?_⟩
  split
  · exact (takeDown_setupKept s r .timeout .timeout).trans ⟨rfl, rfl, rfl, fun h => logWith_length_le h _⟩
  · exact .refl s

theorem execTick_setupKept : ∃ t, execTick s = .next t ∧ SetupKept s t := by
  refine ⟨_, rfl, ?_⟩
  dsimp only
  split <;> exact .of_eq rfl

theorem execNearWarning_setupKept : ∃ t, execNearWarning s = .next t ∧ SetupKept s t := by
  refine ⟨_, rfl, ?_⟩
  split <;> exact ⟨rfl, rfl, rfl, id⟩

theorem execCutoverMatch_setupKept : ∃ t, execCutoverMatch s = .next t ∧ SetupKept s t := by
  refine ⟨_, rfl, ?_⟩
  repeat' split
  all_goals exact ⟨rfl, rfl, rfl, id⟩

theorem execCutoverClosingStart_setupKept : ∃ t, execCutoverClosingStart s = .next t ∧ SetupKept s t := by
  refine ⟨_, rfl, ?_⟩
  split <;> exact .of_eq rfl

theorem execCutoverRouteClose_setupKept : ∃ t, execCutoverRouteClose s = .next t ∧ SetupKept s t := by
  refine ⟨_, rfl, ?_⟩
  split
  · split
    · next r _ => exact (askClose_setupKept s r).trans (.of_eq rfl)
    · exact .of_eq rfl
  · exact .refl s

/-- A family that may not roll is logged ROLL_REFUSED (R33). -/
theorem rollTurn_setupKept (f : FamilyNo) : SetupKept s (s.rollTurn f) := by
  unfold State.rollTurn
  dsimp only
  split
  · split
    · exact .of_eq rfl
    · exact (logFault_setupKept s .rollRefused f.val).trans ⟨rfl, rfl, rfl, id⟩
  · exact ⟨rfl, rfl, rfl, id⟩

theorem execCutoverFamilyRoll_setupKept : ∃ t, execCutoverFamilyRoll s = .next t ∧ SetupKept s t := by
  refine ⟨_, rfl, ?_⟩
  split
  · split
    · split
      · exact .refl s
      · exact rollTurn_setupKept s _
    · exact .refl s
  · exact .refl s

theorem execDeferredClose_setupKept (r : RouteNo) : ∃ t, execDeferredClose r s = .next t ∧ SetupKept s t := by
  refine ⟨_, rfl, ?_⟩
  split
  · exact settleDeferred_setupKept s r
  · exact .refl s

theorem execResetLine_setupKept : ∃ t, execResetLine s = .next t ∧ SetupKept s t := by
  refine ⟨_, rfl, ?_⟩
  split <;> exact .of_eq rfl

theorem undoFamily_setupKept (f : FamilyNo) : SetupKept s (s.undoFamily f) := by
  unfold State.undoFamily
  dsimp only
  split
  · exact .refl s
  · exact ⟨rfl, rfl, rfl, fun h => logWith_length_le h _⟩
  · exact .of_eq rfl

theorem rollWhole_setupKept (f : FamilyNo) : SetupKept s (s.rollWhole f) := by
  unfold State.rollWhole
  dsimp only
  split
  · split
    · exact ⟨rfl, rfl, rfl, id⟩
    · exact logFault_setupKept s .rollRefused f.val
  · exact .refl s

theorem resumeClosing_setupKept : SetupKept s s.resumeClosing := by
  unfold State.resumeClosing
  split
  · exact foldl_keeps (SetupKept s) _ (fun t r h => h.trans (askClose_setupKept t r)) _ _ (.refl s)
  · exact .refl s

theorem resumeRolling_setupKept : SetupKept s s.resumeRolling := by
  unfold State.resumeRolling
  split
  · exact foldl_keeps (SetupKept s) _ (fun t f h => h.trans (rollWhole_setupKept t f)) _ _ (.refl s)
  · exact .refl s

theorem finishCutover_setupKept : SetupKept s s.finishCutover := ⟨rfl, rfl, rfl, id⟩

theorem resume_setupKept : SetupKept s s.resume := by
  unfold State.resume
  split
  · exact .refl s
  · exact (resumeRolling_setupKept s).trans (finishCutover_setupKept _)
  · exact ((resumeClosing_setupKept s).trans (resumeRolling_setupKept _)).trans (finishCutover_setupKept _)

/-- After it has abandoned an open sequence and cleared the log, a restore only raises and logs (R166, R172). -/
theorem warmRestore_setupKept (straps : BitVec 6) : SetupKept (restoreSettled s straps) (s.warmRestore straps) := by
  rw [warmRestore_mid, restoreMid_eq]
  have hundone : SetupKept (restoreSettled s straps) (restoreSettled s straps).undoAll :=
    foldl_keeps (SetupKept _) _ (fun t f h => h.trans (undoFamily_setupKept t f)) _ _ (.refl _)
  have htail : SetupKept (restoreSettled s straps).undoAll (restoreSettled s straps).undoAll.restoreDispatch.releaseAll :=
    .of_eq (restoreTail_start _).2.2.2.2.2.2.2
  exact (hundone.trans htail).trans (resume_setupKept _)

end

section

variable {s : State} (hs : s.SetupOk)
include hs

theorem execLinkReset_setupOk (l : LinkId) (corr : Byte) (p : List Byte) :
    ∃ t, execLinkReset l corr p s = .next t ∧ t.SetupOk := by
  refine ⟨_, rfl, ?_⟩
  split
  · split
    · rcases frameArrives_setupKept l (0x0F#8 :: corr :: p) s with ⟨t, he, hk⟩ | ⟨t, he, hk⟩ <;> rw [he] <;> exact hs.kept hk
    · exact (resetLink_setupOk hs l .hunting).answer _ _ _
  · exact hs

theorem execLineBreak_setupOk (l : LinkId) : ∃ t, execLineBreak l s = .next t ∧ t.SetupOk := by
  have hlow := hs.kept (setLink_setupKept s l { s.link l with low := true })
  refine ⟨_, rfl, ?_⟩
  dsimp only
  split
  · exact resetLink_setupOk hlow l .inBreak
  · exact hlow

theorem execWarmRestore_setupOk (straps : BitVec 6) : ∃ t, execWarmRestore straps s = .next t ∧ t.SetupOk := by
  refine ⟨_, rfl, ?_⟩
  split
  · have hsettled : (restoreSettled s straps).SetupOk := by
      refine setupOk_of_status ?_
      rw [restoreStart_status_part]
      exact hs.unit.lapse.abandoned.raise .restored
    exact hsettled.kept (warmRestore_setupKept s straps)
  · exact hs

theorem execStoreLost_setupOk (straps : BitVec 6) : ∃ t, execStoreLost straps s = .next t ∧ t.SetupOk := by
  refine ⟨_, rfl, ?_⟩
  split
  · exact setupOk_of_status (StatusUnit.ok_outside nofun rfl rfl (Nat.zero_le _))
  · exact hs

theorem execPowerLoss_setupOk : ∃ t, execPowerLoss s = .next t ∧ t.SetupOk := by
  refine ⟨_, rfl, ?_⟩
  split
  · exact hs
  · exact setupOk_of_status hs.unit.lapse

end

/-! ### Every step -/

section

variable {l : LinkId} {corr : Byte} {p : List Byte} {s : State} (hs : s.SetupOk)
include hs

/-- What the part does with a request before its own act keeps the invariant; so the request does where its act does. -/
theorem request_setupOk {α : Type} {kind : Byte} {ring : Nat} {parse : List Byte → Option α} {spoil : State → State}
    {act : α → State → State} (hspoil : ∀ u, u.SetupOk → (spoil u).SetupOk) (hact : ∀ a u, u.SetupOk → (act a u).SetupOk) :
    (request kind ring parse spoil l corr p act s).SetupOk :=
  request_keeps State.SetupOk hs (fun h => h.kept (setLink_setupKept _ l _)) (fun h => h.kept (setLink_setupKept _ l _))
    (fun u h _ => h.kept (setLink_setupKept u l _)) (fun _ code h _ => h.answer l corr code)
    (fun u h _ => (hspoil u h).answer l corr _) (fun a u _ _ h _ _ _ => hact a u h)

/-- A request whose act leaves the sequence. -/
theorem plainRequest_setupOk {α : Type} {kind : Byte} {ring : Nat} {parse : List Byte → Option α}
    {act : α → State → State} (hact : ∀ a u, SetupKept u (act a u)) :
    (request kind ring parse id l corr p act s).SetupOk :=
  request_setupOk hs (fun _ => id) fun a u hu => hu.kept (hact a u)

/-- A setup message, which ends an open sequence when its length is wrong (R166). -/
theorem setupRequest_setupOk {α : Type} {kind : Byte} {parse : List Byte → Option α} {act : α → State → State}
    (hact : ∀ a u, u.SetupOk → (act a u).SetupOk) : (request kind 0 parse State.abandon l corr p act s).SetupOk :=
  request_setupOk hs (fun _ h => h.abandon) hact

theorem laneRequest_setupOk {kind : Byte} {act : LaneNo → State → State} (hact : ∀ i u, SetupKept u (act i u)) :
    (laneRequest kind l corr p act s).SetupOk :=
  laneRequest_keeps State.SetupOk hs (fun h => h.kept (setLink_setupKept _ l _)) (fun h => h.kept (setLink_setupKept _ l _))
    (fun u h _ => h.kept (setLink_setupKept u l _)) (fun _ code h _ => h.answer l corr code)
    (fun i u _ h _ _ _ => h.kept (hact i u))

theorem routeRequest_setupOk {α : Type} {kind : Byte} {parse : List Byte → Option α} {route : α → Byte}
    {act : α → RouteNo → RouteConfig → State → State} (hact : ∀ a r c u, SetupKept u (act a r c u)) :
    (request kind 1 parse id l corr p (fun a => onRoute l corr (route a) (act a)) s).SetupOk :=
  plainRequest_setupOk hs fun a u =>
    onRoute_keeps (SetupKept u) (fun code => answer_setupKept u l corr code) fun r c _ _ => hact a r c u

theorem terminalRequest_setupOk {α β : Type} {kind : Byte} {parse : List Byte → Option α} {terminal : α → Byte}
    {fields : α → Option β} {act : TerminalNo → β → State → State} (hact : ∀ t a u, SetupKept u (act t a u)) :
    (request kind 1 parse id l corr p (fun a => onTerminal l corr (terminal a) (fields a) act) s).SetupOk :=
  plainRequest_setupOk hs fun _ u =>
    onTerminal_keeps (SetupKept u) (fun code => answer_setupKept u l corr code) fun t a _ => hact t a u

/-- An event that leaves the sequence keeps the invariant. -/
theorem setupOk_of_kept {o : Host.Outcome State Fault Refusal} (h : ∃ t, o = .next t ∧ SetupKept s t) :
    ∃ t, o = .next t ∧ t.SetupOk := by
  obtain ⟨t, he, hk⟩ := h
  exact ⟨t, he, hs.kept hk⟩

end

/-- Every command answers next and keeps the setup state and the fault log in order. -/
theorem exec_setupOk (c : Instr) {s : State} (hs : s.SetupOk) : ∃ t, exec c s = .next t ∧ t.SetupOk := by
  cases c with
  | auth l corr p => exact ⟨_, rfl, laneRequest_setupOk hs fun i u => wrapRequestAct_setupKept corr u .auth i p⟩
  | refund l corr p => exact ⟨_, rfl, laneRequest_setupOk hs fun i u => wrapRequestAct_setupKept corr u .refund i p⟩
  | reversal l corr p => exact ⟨_, rfl, laneRequest_setupOk hs fun i u => wrapRequestAct_setupKept corr u .reversal i p⟩
  | laneStatus l corr p => exact ⟨_, rfl, laneRequest_setupOk hs fun _ u => answer_setupKept u _ _ _ _⟩
  | linkReset l corr p => exact execLinkReset_setupOk hs l corr p
  | frameBad l chars => exact setupOk_of_kept hs (execFrameBad_setupKept s l chars)
  | lineBreak l => exact execLineBreak_setupOk hs l
  | lineBreakEnd l => exact ⟨_, rfl, hs.kept (setLink_setupKept s l _)⟩
  | grant => exact setupOk_of_kept hs (execGrant_setupKept s)
  | completion => exact setupOk_of_kept hs (execCompletion_setupKept s)
  | enrol l corr p => exact ⟨_, rfl, terminalRequest_setupOk hs fun t a u => enrolAct_setupKept l corr t u a⟩
  | holdTerminal l corr p =>
    exact ⟨_, rfl, terminalRequest_setupOk hs fun t _ u => onEnrolled_setupKept l corr t u (.of_eq rfl)⟩
  | releaseTerminal l corr p =>
    exact ⟨_, rfl, terminalRequest_setupOk hs fun t _ u => releaseTerminalAct_setupKept l corr t u⟩
  | move l corr p => exact ⟨_, rfl, terminalRequest_setupOk hs fun t a u => moveAct_setupKept l corr t u a⟩
  | retire l corr p =>
    exact ⟨_, rfl, terminalRequest_setupOk hs fun t _ u => onEnrolled_setupKept l corr t u (.of_eq rfl)⟩
  | setFloor l corr p =>
    exact ⟨_, rfl, terminalRequest_setupOk hs fun t _ u => onEnrolled_setupKept l corr t u (.of_eq rfl)⟩
  | terminalQuery l corr p => exact ⟨_, rfl, plainRequest_setupOk hs (terminalQueryAct_setupKept l corr)⟩
  | keyLoad l corr p => exact ⟨_, rfl, plainRequest_setupOk hs fun a u => keyLoadAct_setupKept l corr u a⟩
  | loadCompletion f => exact setupOk_of_kept hs (execLoadCompletion_setupKept s f)
  | rollFamily l corr p => exact ⟨_, rfl, plainRequest_setupOk hs (rollFamilyAct_setupKept l corr)⟩
  | rollCompletion f => exact setupOk_of_kept hs (execRollCompletion_setupKept s f)
  | retireFamily l corr p => exact ⟨_, rfl, plainRequest_setupOk hs (retireFamilyAct_setupKept l corr)⟩
  | familyQuery l corr p => exact ⟨_, rfl, plainRequest_setupOk hs (familyQueryAct_setupKept l corr)⟩
  | setCeiling l corr p => exact ⟨_, rfl, plainRequest_setupOk hs fun a u => setCeilingAct_setupKept l corr a.1 u a.2⟩
  | holdLane l corr p => exact ⟨_, rfl, plainRequest_setupOk hs fun a u => laneHoldAct_setupKept l corr a u true⟩
  | releaseLane l corr p => exact ⟨_, rfl, plainRequest_setupOk hs fun a u => laneHoldAct_setupKept l corr a u false⟩
  | routeUp l corr p => exact ⟨_, rfl, routeRequest_setupOk hs fun _ => routeUpAct_setupKept l corr⟩
  | routeDown l corr p => exact ⟨_, rfl, routeRequest_setupOk hs fun _ => routeDownAct_setupKept l corr⟩
  | pullOne l corr p => exact ⟨_, rfl, routeRequest_setupOk hs fun _ => pullOneAct_setupKept l corr⟩
  | pullBlock l corr p =>
    exact ⟨_, rfl, routeRequest_setupOk hs fun a r c u => pullBlockAct_setupKept l corr r c u a.2⟩
  | streamOpen l corr p =>
    exact ⟨_, rfl, routeRequest_setupOk hs fun a r c u => streamOpenAct_setupKept l corr r c u a.2.1 a.2.2⟩
  | streamClose l corr p => exact ⟨_, rfl, routeRequest_setupOk hs fun _ _ _ _ => .of_eq rfl⟩
  | streamOffer l => exact setupOk_of_kept hs (execStreamOffer_setupKept s l)
  | transmitComplete l => exact setupOk_of_kept hs (execTransmitComplete_setupKept s l)
  | ackOne l corr p =>
    exact ⟨_, rfl, routeRequest_setupOk hs fun a r c u => ackOneAct_setupKept l corr r c u a.2.1 a.2.2⟩
  | ackOldest l corr p => exact ⟨_, rfl, routeRequest_setupOk hs fun _ => ackOldestAct_setupKept l corr⟩
  | ackThrough l corr p =>
    exact ⟨_, rfl, routeRequest_setupOk hs fun a r c u => ackThroughAct_setupKept l corr r c u a.2.1 a.2.2⟩
  | ackTimerExpiry r => exact setupOk_of_kept hs (execAckTimerExpiry_setupKept s r)
  | tick => exact setupOk_of_kept hs (execTick_setupKept s)
  | nearWarning => exact setupOk_of_kept hs (execNearWarning_setupKept s)
  | cutoverMatch => exact setupOk_of_kept hs (execCutoverMatch_setupKept s)
  | cutoverClosingStart => exact setupOk_of_kept hs (execCutoverClosingStart_setupKept s)
  | cutoverRouteClose => exact setupOk_of_kept hs (execCutoverRouteClose_setupKept s)
  | cutoverFamilyRoll => exact setupOk_of_kept hs (execCutoverFamilyRoll_setupKept s)
  | setClock l corr p => exact ⟨_, rfl, plainRequest_setupOk hs fun a u => setClockAct_setupKept l corr u a⟩
  | setCutover l corr p => exact ⟨_, rfl, plainRequest_setupOk hs fun a u => setCutoverAct_setupKept l corr u a⟩
  | closeBatch l corr p => exact ⟨_, rfl, plainRequest_setupOk hs (closeBatchAct_setupKept l corr)⟩
  | deferredClose r => exact setupOk_of_kept hs (execDeferredClose_setupKept s r)
  | setupBegin l corr p => exact ⟨_, rfl, setupRequest_setupOk hs fun a _ hu => setupBeginAct_setupOk hu l corr a⟩
  | routeDefine l corr p => exact ⟨_, rfl, setupRequest_setupOk hs fun a _ hu => routeDefineAct_setupOk hu l corr a⟩
  | setupEnd l corr p => exact ⟨_, rfl, setupRequest_setupOk hs fun _ _ hu => setupEndAct_setupOk hu l corr⟩
  | statusRead l corr p => exact ⟨_, rfl, plainRequest_setupOk hs fun _ _ => ⟨rfl, rfl, rfl, id⟩⟩
  | faultRead l corr p => exact ⟨_, rfl, plainRequest_setupOk hs fun _ => faultReadAct_setupKept l corr⟩
  | routeQuery l corr p => exact ⟨_, rfl, plainRequest_setupOk hs (routeQueryAct_setupKept l corr)⟩
  | erase l corr p => exact ⟨_, rfl, request_setupOk hs (fun _ => id) fun _ u _ => eraseAct_setupOk l corr u⟩
  | warmRestore straps => exact execWarmRestore_setupOk hs straps
  | storeLost straps => exact execStoreLost_setupOk hs straps
  | resetLine => exact setupOk_of_kept hs (execResetLine_setupKept s)
  | powerLoss => exact execPowerLoss_setupOk hs
  | retentionLoss => exact ⟨_, rfl, hs.kept (.of_eq rfl)⟩
  | unknownKind l corr kind p => exact setupOk_of_kept hs (execUnknownKind_setupKept s l corr kind p)

/-- Settles O60: the setup messages, a reset of the service port and a restore open, extend or end a sequence whole, the log
loses an entry before it passes 16, and every other step only raises and logs. -/
theorem stepKeepsSetupOk : Obligations.StepKeepsSetupOk := by
  intro s t hs hstep
  unfold step at hstep
  split at hstep
  · cases hstep
    exact hs
  · next c rest _ =>
    have hb : State.SetupOk { s with pending := rest } := hs.kept (.of_eq rfl)
    obtain ⟨u, hu, hok⟩ := exec_setupOk c hb
    rw [hu] at hstep
    cases hstep
    exact hok

end Sys2Proof.Machine
end

section
/-! The state after lost retention (R38, R57, R114, R173) and the pins (R171). -/

namespace Sys2Proof.Machine

/-! ### The entries of the reset state (R173) -/

@[simp] theorem reset_config (r : RouteNo) : State.reset.config r = none := Vec.get_replicate _ _

@[simp] theorem reset_term (n : TerminalNo) : State.reset.term n = Terminal.vacant := Vec.get_replicate _ _

@[simp] theorem reset_family (f : FamilyNo) : State.reset.family f = Family.empty := Vec.get_replicate _ _

@[simp] theorem reset_queue (r : RouteNo) : State.reset.queue r = RouteQueue.fresh ⟨0, 0⟩ := Vec.get_replicate _ _

@[simp] theorem reset_account (r : RouteNo) : State.reset.account r = RouteAccount.empty := Vec.get_replicate _ _

@[simp] theorem reset_route (r : RouteNo) : State.reset.route r = RouteDispatch.absent := Vec.get_replicate _ _

@[simp] theorem reset_lane (i : LaneNo) : State.reset.lane i = ⟨[], false⟩ := Vec.get_replicate _ _

@[simp] theorem reset_link (l : LinkId) : State.reset.link l = Link.start := Vec.get_replicate _ _

/-- No stream is open after lost retention (R136). -/
theorem reset_streamsOn (l : LinkId) : State.reset.streamsOn l = 0 := by
  simp [State.streamsOn, RouteDispatch.absent]

/-- The enable word of a blank unit holds every event (R167). -/
theorem holdsFlag_blank_enables (e : EventFlag) : holdsFlag StatusUnit.blank.enables e = true := by cases e <;> rfl

/-- The flag word of the reset state holds STORE_LOST alone (R173). -/
theorem holdsFlag_reset_flags (e : EventFlag) : holdsFlag State.reset.status.flags e = (e == .storeLost) := by
  cases e <;> rfl

/-- Settles O3: every table of the reset state holds one value in all its entries. -/
theorem resetValues : Obligations.ResetValues := by
  unfold Obligations.ResetValues
  have hfamily : ∀ f, (State.reset.family f).now.state = .empty ∧ (State.reset.family f).now.generation = 0 ∧
      (State.reset.family f).now.root = none := fun f => by
    rw [reset_family]
    exact ⟨rfl, rfl, rfl⟩
  have haccount : ∀ r, (State.reset.account r).totals = Totals.zero ∧ (State.reset.account r).offline = 0 ∧
      (State.reset.account r).overflow = false ∧ (State.reset.account r).active = 0 ∧
      (State.reset.account r).pending = 0 := fun r => by
    rw [reset_account]
    exact ⟨rfl, rfl, rfl, rfl, rfl⟩
  have hlink : ∀ l, (State.reset.link l).receiver = .hunting ∧ (State.reset.link l).queue = [] ∧
      (State.reset.link l).pointer = 3 := fun l => by
    rw [reset_link]
    exact ⟨rfl, rfl, rfl⟩
  have hbatch : ∀ r, (State.reset.queue r).batch = 1 := fun r => by
    rw [reset_queue]
    rfl
  exact ⟨rfl, rfl, rfl, reset_config, reset_term, hfamily, rfl, hbatch, haccount, rfl, rfl, rfl, rfl,
    holdsFlag_blank_enables, holdsFlag_reset_flags, rfl, rfl, hlink⟩

/-! ### The invariants after lost retention -/

/-- Empty queues on every lane and link bear nothing (R74, R161). -/
theorem reset_queuesOk : State.reset.QueuesOk where
  intake i := by simp
  own i q hq := by simp at hq
  lanes i := by
    rw [reset_link, reset_lane]
    exact Nat.zero_le _
  streams r st hst := by simp [RouteDispatch.absent] at hst
  partner l _ := by
    rw [reset_link, reset_streamsOn]
    exact Nat.zero_le _

/-- Settles O52: each invariant holds of empty blocks. -/
theorem invariantsHoldAtReset : Obligations.InvariantsHoldAtReset :=
  ⟨emptyKeys_keysOk rfl, reset_queuesOk, State.dispatchOk_of_undefined rfl rfl, vacantTable_terminalsOk rfl rfl,
    emptyAccounts_accountsOk rfl rfl rfl, emptyStore_storeOk rfl rfl rfl,
    (noRolls_of_emptyKeys rfl).cutoverOk CutoverUnit.initial_ok,
    setupOk_of_status (StatusUnit.ok_outside nofun rfl rfl (Nat.zero_le _))⟩

/-! ### The pins (R171) -/

theorem exec_powerLoss {s : State} (h : s.supply ≠ .off) : exec .powerLoss s = .next { s.lapse with supply := .off } :=
  congrArg Host.Outcome.next (if_neg h)

theorem exec_resetLine {s : State} (h : s.supply = .on) : exec .resetLine s = .next { s with supply := .held } :=
  congrArg Host.Outcome.next (if_pos h)

theorem exec_storeLost {straps : BitVec 6} {s : State} (hoff : s.supply = .off) (hmark : s.valid = false) :
    exec (.storeLost straps) s = .next (s.lost straps) :=
  congrArg Host.Outcome.next (if_pos ⟨hoff, hmark⟩)

/-- A restarted link: nothing queued or on its way, its line where it was, the rate of its strap (R161). -/
theorem link_of_startLinks {s t : State} {straps : BitVec 6} (h : t.links = startLinks s.links straps) (l : LinkId) :
    t.link l = ⟨if (s.link l).low then .inBreak else .hunting, (s.link l).low, straps.getLsbD (linkIndex l).val, [], none,
      3⟩ := by
  rw [State.link, h, startLinks, Vec.get_gen]
  rfl

/-- Settles O51: POWER_LOSS drops what is not retained, STORE_LOST keeps the lines and the commands waiting. -/
theorem pinsAndLostRetention : Obligations.PinsAndLostRetention := by
  refine ⟨fun s hs => ⟨_, exec_powerLoss hs, ?_⟩, fun s => rfl, fun s hs => exec_resetLine hs, fun straps s hoff hmark =>
    ⟨_, exec_storeLost hoff hmark, rfl, link_of_startLinks rfl⟩⟩
  refine ⟨rfl, rfl, rfl, rfl, rfl, rfl, rfl, rfl, rfl, rfl, rfl, rfl, rfl, rfl, rfl, rfl, rfl, rfl, fun k w hb => ?_⟩
  change s.engine.lapse = .cut k
  rw [hb]
  rfl

end Sys2Proof.Machine
end

section
/-! Commands refused outside RUNNING and in SETUP (R28, R35, R138, R162). -/

namespace Sys2Proof.Machine

/-! ### Parsers read every payload of their lengths (R174) -/

/-- A parser reads every payload of certain lengths. -/
def ReadsAll {α : Type} (parse : List Byte → Option α) (lengths : List Nat) : Prop :=
  ∀ p, p.length ∈ lengths → ∃ a, parse p = some a

theorem readsAll_of_length {α : Type} {parse : List Byte → Option α} {n : Nat}
    (h : ∀ p, p.length = n → ∃ a, parse p = some a) : ReadsAll parse [n] :=
  fun p hp => h p (List.mem_singleton.mp hp)

theorem parseByte_readsAll : ReadsAll parseByte [1] :=
  readsAll_of_length fun | [_], _ => ⟨_, rfl⟩

theorem parseTwo_readsAll : ReadsAll parseTwo [2] :=
  readsAll_of_length fun | [_, _], _ => ⟨_, rfl⟩

theorem parseThree_readsAll : ReadsAll parseThree [3] :=
  readsAll_of_length fun | [_, _, _], _ => ⟨_, rfl⟩

theorem parseAck_readsAll : ReadsAll parseAck [5] :=
  readsAll_of_length fun | [_, _, _, _, _], _ => ⟨_, rfl⟩

theorem parseClock_readsAll : ReadsAll parseClock [5] :=
  readsAll_of_length fun | [_, _, _, _, _], _ => ⟨_, rfl⟩

theorem parseMove_readsAll : ReadsAll parseMove [5] :=
  readsAll_of_length fun | [_, _, _, _, _], _ => ⟨_, rfl⟩

theorem parsePacked_readsAll : ReadsAll parsePacked [7] :=
  readsAll_of_length fun | [_, _, _, _, _, _, _], _ => ⟨_, rfl⟩

theorem parseEnrol_readsAll : ReadsAll parseEnrol [11] :=
  readsAll_of_length fun | [_, _, _, _, _, _, _, _, _, _, _], _ => ⟨_, rfl⟩

theorem parseLoad_readsAll : ReadsAll parseLoad [43] :=
  readsAll_of_length fun
    | _ :: _ :: _ :: _ :: _ :: _ :: _ :: _ :: _, h => ⟨_, if_pos h⟩

/-! ### Rows refused NOT_RUNNING in a part state (R162) -/

/-- A row refuses in some part states: it runs as a request whose parser reads every payload of the row's lengths and whose
act answers NOT_RUNNING in those states. -/
def RequestRow.RefusesIn (row : RequestRow) (states : PartState → Prop) : Prop :=
  ∃ (α : Type) (kind : Byte) (parse : List Byte → Option α) (act : LinkId → Byte → α → State → State),
    row.IsRequest kind parse act ∧ (∀ ns, row.lengths = some ns → ReadsAll parse ns) ∧
    ∀ l corr a s, states s.status.part → act l corr a s = s.answer l corr .notRunning

/-- A row refuses in some part states when its frame and its command are those of a request, up to unfolding, and the act
of the request tests the part state first. -/
theorem refusesIn_of {α : Type} {make : LinkId → Byte → List Byte → Instr} {ring : Nat} {ns : List Nat}
    {states : PartState → Prop} {kind : Byte} {parse : List Byte → Option α} {act : LinkId → Byte → α → State → State}
    (honly : ReadsOnly parse ns) (hall : ReadsAll parse ns)
    (hframe : ∀ l corr p, (make l corr p).frame = some (l, kind :: corr :: p))
    (hrun : ∀ l corr p s, exec (make l corr p) s = .next (request kind ring parse id l corr p (act l corr) s))
    (hact : ∀ l corr a s, states s.status.part → act l corr a s = s.answer l corr .notRunning) :
    RequestRow.RefusesIn ⟨make, ring, some ns, false⟩ states :=
  ⟨α, kind, parse, act, ⟨hframe, hrun, fun _ h => Option.some.inj h ▸ honly⟩, fun _ h => Option.some.inj h ▸ hall, hact⟩

/-- A command of a row that refuses in the state's part state is answered NOT_RUNNING. -/
theorem RequestRow.RefusesIn.exec_eq {row : RequestRow} {states : PartState → Prop} (hrow : row.RefusesIn states)
    {ns : List Nat} {l : LinkId} {corr : Byte} {p : List Byte} {s : State} (hns : row.lengths = some ns)
    (hears : s.Hears l p.length) (hring : linkRing l ≤ row.ring) (hlen : p.length ∈ ns) (hpart : states s.status.part) :
    exec (row.make l corr p) s = .next (s.answer l corr .notRunning) := by
  obtain ⟨α, kind, parse, act, hrequest, hall, hact⟩ := hrow
  obtain ⟨a, ha⟩ := hall ns hns p hlen
  rw [hrequest.run, request_taken hears hring ha, hact l corr a s hpart]

/-- The rows of a RUNNING part test for RUNNING first. -/
theorem runningRows_refuse : ∀ row ∈ runningRows, row.RefusesIn (· ≠ .running) := by
  simp only [runningRows, List.forall_mem_append, List.forall_mem_cons, List.not_mem_nil, false_implies, implies_true,
    and_true]
  and_intros
  all_goals refine refusesIn_of ?_ ?_ (fun _ _ _ => rfl) (fun _ _ _ _ => rfl) (fun _ _ _ _ hpart => if_neg hpart)
  all_goals simp only [parseByte_readsOnly, parseTwo_readsOnly, parseThree_readsOnly, parseAck_readsOnly,
    parsePacked_readsOnly, parseEnrol_readsOnly, parseMove_readsOnly, parseByte_readsAll, parseTwo_readsAll,
    parseThree_readsAll, parseAck_readsAll, parsePacked_readsAll, parseEnrol_readsAll, parseMove_readsAll]

/-- The rows of BLANK and RUNNING test for SETUP first. -/
theorem notInSetupRows_refuse : ∀ row ∈ notInSetupRows, row.RefusesIn (· = .setup) := by
  simp only [notInSetupRows, List.forall_mem_cons, List.not_mem_nil, false_implies, implies_true, and_true]
  exact ⟨refusesIn_of parseClock_readsOnly parseClock_readsAll (fun _ _ _ => rfl) (fun _ _ _ _ => rfl)
      fun _ _ _ _ h => if_pos h,
    refusesIn_of parseLoad_readsOnly parseLoad_readsAll (fun _ _ _ => rfl) (fun _ _ _ _ => rfl)
      fun _ _ _ _ h => if_pos h,
    refusesIn_of parseByte_readsOnly parseByte_readsAll (fun _ _ _ => rfl) (fun _ _ _ _ => rfl)
      fun _ _ _ _ h => if_pos h⟩

/-- Settles O7: both kinds of row refuse by the part state. -/
theorem notRunningRefused : Obligations.NotRunningRefused :=
  ⟨fun row hrow _ _ _ _ _ hns hears hring hlen hpart => (runningRows_refuse row hrow).exec_eq hns hears hring hlen hpart,
    fun row hrow _ _ _ _ _ hns hears hring hlen hpart => (notInSetupRows_refuse row hrow).exec_eq hns hears hring hlen hpart⟩

end Sys2Proof.Machine
end

section
/-! Event flags, the fault log, STATUS READ and FAULT READ (R167 to R169). -/

namespace Sys2Proof.Machine

/-! ### Event flags (R167) -/

/-- The event of a bit of the flag word (R178). -/
def EventFlag.ofBit (n : Nat) : EventFlag :=
  [EventFlag.cutoverNear, .cutoverDone, .closeDeferred, .keyLow, .keyExhausted, .storeHigh, .ackTimeout, .totalOverflow,
    .faultLogged, .restored].getD n .storeLost

theorem EventFlag.ofBit_bit (e : EventFlag) : EventFlag.ofBit e.bit = e := by cases e <;> rfl

theorem EventFlag.bit_ofBit : ∀ n : Fin 11, (EventFlag.ofBit n.val).bit = n.val := by decide

theorem EventFlag.bit_lt (e : EventFlag) : e.bit < 11 := by cases e <;> decide

theorem EventFlag.bit_inj {e f : EventFlag} : e.bit = f.bit ↔ e = f :=
  ⟨fun h => by rw [← ofBit_bit e, h, ofBit_bit], fun h => h ▸ rfl⟩

/-- The mask of an event holds that event alone. -/
theorem holdsFlag_mask (e f : EventFlag) : holdsFlag e.mask f = decide (e = f) := by
  simp [holdsFlag, EventFlag.mask, BitVec.getLsbD_twoPow, e.bit_lt, EventFlag.bit_inj]

/-- Raising an event sets its flag and no other (R167). -/
theorem holdsFlag_raise (s : State) (e f : EventFlag) :
    holdsFlag (s.raise e).status.flags f = (decide (e = f) || holdsFlag s.status.flags f) := by
  rw [← holdsFlag_mask, Bool.or_comm]
  exact BitVec.getLsbD_or

/-- A word of flags is not 0 when it holds an event. -/
theorem flagWord_ne_zero_iff (w : BitVec 11) : w ≠ 0#11 ↔ ∃ e, holdsFlag w e = true := by
  constructor
  · intro hw
    by_contra hnone
    refine hw (BitVec.eq_of_getLsbD_eq fun i hi => ?_)
    have hbit := EventFlag.bit_ofBit ⟨i, hi⟩
    have hclear : holdsFlag w (EventFlag.ofBit i) ≠ true := fun h => hnone ⟨_, h⟩
    rw [holdsFlag, hbit] at hclear
    simpa using hclear
  · rintro ⟨e, he⟩ rfl
    simp [holdsFlag] at he

/-- The alert line is asserted while a flag is both set and enabled (R167). -/
theorem alertLine_iff (s : State) : s.alertLine = true ↔
    ∃ e, holdsFlag s.status.flags e = true ∧ holdsFlag s.status.enables e = true := by
  rw [State.alertLine, bne_iff_ne, flagWord_ne_zero_iff]
  simp [holdsFlag]

/-! ### The fault log (R169) -/

/-- A log with room takes an entry at its end. -/
theorem logFault_room {s : State} (h : s.status.log.length < 16) (code : FaultCode) (unit : Nat) :
    s.logFault code unit = (({ s with status := { s.status with log := s.status.log ++ [⟨code, s.time, unit⟩] } } :
      State).raise .faultLogged) := by
  have hroom : ¬ Config.logLimit ≤ s.status.log.length := Nat.not_le.mpr h
  simp [State.logFault, StatusUnit.logFault, logWith, hroom, State.raise, StatusUnit.raise]

/-- A full log loses its oldest entry, and the overrun mark is set. -/
theorem logFault_full {s : State} (h : 16 ≤ s.status.log.length) (code : FaultCode) (unit : Nat) :
    s.logFault code unit = (({ s with status := { s.status with
      log := s.status.log.tail ++ [⟨code, s.time, unit⟩]
      overrun := true } } : State).raise .faultLogged) := by
  have hfull : Config.logLimit ≤ s.status.log.length := h
  simp [State.logFault, StatusUnit.logFault, logWith, hfull, State.raise, StatusUnit.raise]

theorem eventsAndLog (s : State) : EventsAndLog s :=
  ⟨holdsFlag_raise s, fun _ => rfl, fun c _ => by cases c <;> rfl,
    fun code unit => ⟨fun h => logFault_room h code unit, fun h => logFault_full h code unit⟩, alertLine_iff s⟩

/-! ### STATUS READ (R168) -/

/-- The setup position is the route expected, or 4 for SETUP END (R162). -/
theorem expects_getD (g : Staged) : g.expects.getD 4 = if g.routes.length < g.count then g.routes.length else 4 := by
  unfold Staged.expects
  split <;> rfl

/-- STATUS READ reports the items named for it (R168). -/
theorem statusReport_eq (s : State) : s.statusReport = reportedStatus s := by
  have hlane : s.engine.lane = (match s.engine with | .busy _ w => some w.lane | _ => none) := by
    cases s.engine <;> rfl
  have hroute : ∀ r, (if s.defined r then some (s.routeStatus r) else none) = (s.config r).map fun c =>
      let q := s.queue r
      ⟨(s.route r).state, q.batch, q.nextSeq, recordsIn s r .pending, recordsIn s r .offered, recordsIn s r .acked,
        s.storeRoom r, decide (s.ringRoom r ≤ c.highWater), q.buffer.map (·.state), q.pending.map (·.reason), q.full,
        (s.account r).overflow⟩ := by
    intro r
    cases hc : s.config r with
    | none => simp [State.defined, hc]
    | some c => simp [State.defined, hc, State.routeStatus, State.ringLow, countIn_eq]
  simp only [State.statusReport, reportedStatus, expects_getD, hlane, hroute]
  rfl

section

variable {l : LinkId} {corr : Byte} {s : State}

theorem exec_statusRead (h : s.Hears l 0) (hl : isPartner l = true) :
    exec (.statusRead l corr []) s = .next (State.answer { s with status := { s.status with flags := 0#11 } } l corr .done
      (.status (reportedStatus s))) := by
  rw [← statusReport_eq]
  exact congrArg Host.Outcome.next (request_taken (parse := parseEnables) (p := []) h (linkRing_of_isPartner hl) rfl)

/-- A list of enables is in force before the report is made (R168 step 1). -/
theorem exec_statusRead_enabling (h : s.Hears l 2) (hl : isPartner l = true) (hi lo : Byte) {on : State}
    (hon : on = { s with status := { s.status with enables := BitVec.ofNat 11 (numberOf [hi, lo]) } }) :
    exec (.statusRead l corr [hi, lo]) s = .next (State.answer
      { on with status := { on.status with flags := 0#11 } } l corr .done (.status (reportedStatus on))) := by
  subst hon
  rw [← statusReport_eq]
  exact congrArg Host.Outcome.next (request_taken (parse := parseEnables) (p := [hi, lo]) h (linkRing_of_isPartner hl) rfl)

/-! ### FAULT READ (R169) -/

theorem exec_faultRead (h : s.Hears l 0) (hl : isPartner l = true) :
    exec (.faultRead l corr []) s = .next (faultReadAct l corr s) :=
  congrArg Host.Outcome.next (request_taken (parse := parseNone) (p := []) h (linkRing_of_isPartner hl) rfl)

theorem faultReadAct_entry {entry : FaultEntry} {rest : List FaultEntry} (hlog : s.status.log = entry :: rest) :
    faultReadAct l corr s = State.answer
      { s with status := { s.status with log := rest, overrun := s.status.overrun && !rest.isEmpty } } l corr .done
      (.fault entry rest.length s.status.overrun) := by
  simp [faultReadAct, StatusUnit.faultTaken, hlog]

theorem faultReadAct_empty (hlog : s.status.log = []) :
    faultReadAct l corr s = State.answer { s with status := { s.status with overrun := false } } l corr .empty
      (.noFault s.status.overrun) := by
  simp [faultReadAct, StatusUnit.faultTaken, hlog]

end

/-- Settles O48: raising, logging and the two reads each in one lemma. -/
theorem statusAndFaultReads : Obligations.StatusAndFaultReads := by
  refine ⟨eventsAndLog, fun l corr s hl => ⟨fun h => ⟨exec_statusRead h hl, fun entry rest hlog => ?_, fun hlog => ?_⟩,
    fun h hi lo => exec_statusRead_enabling h hl hi lo rfl⟩⟩
  · rw [exec_faultRead h hl, faultReadAct_entry hlog]
  · rw [exec_faultRead h hl, faultReadAct_empty hlog]

end Sys2Proof.Machine
end

section
/-! ERASE (R38, R71, R95, R173). -/

namespace Sys2Proof.Machine

/-! ### What ERASE answers and removes -/

/-- ERASE is taken in every part state (R173). -/
theorem exec_erase {s : State} (h : s.Hears .service 0) (corr : Byte) :
    exec (.erase .service corr []) s = .next (s.erased.answer .service corr .done) :=
  congrArg Host.Outcome.next (request_taken (parse := parseNone) (p := []) h (Nat.zero_le _) rfl)

/-- The empty places are the entries that name a family's load or roll (R156). -/
theorem isPlace_iff (e : QueueEntry) : e.isPlace = true ↔ ∃ f c, e = .place f c := by
  cases e <;> simp [QueueEntry.isPlace]

/-- The wrap in flight is owed NOT_RUNNING on its lane (R95). -/
theorem eraseAnswers_own {e : Engine} {k : ReservationKept} {w : ReservationWork} {i : LaneNo} (he : e = .busy k w)
    (hi : w.lane = i) (hd : w.discarded = false) : e.eraseAnswers i = [.answer w.corr .notRunning .bare] := by
  subst he
  exact if_pos ⟨hi, hd⟩

/-- Another lane, and the lane of a wrap whose answer is discarded, is owed nothing (R95). -/
theorem eraseAnswers_none {e : Engine} {i : LaneNo} (h : ∀ k w, e = .busy k w → w.lane ≠ i ∨ w.discarded = true) :
    e.eraseAnswers i = [] := by
  cases e with
  | busy k w =>
    refine if_neg fun hown => ?_
    obtain hlane | hdiscarded := h k w rfl
    · exact hlane hown.1
    · exact absurd hdiscarded (Bool.eq_false_iff.mp hown.2)
  | idle => rfl
  | cut k => rfl

/-- ERASE leaves a partner link its messages (R38, R173). -/
theorem erased_link_partner (s : State) {l : LinkId} (hl : isPartner l = true) :
    s.erased.link l = (s.link l).withoutPlaces := by
  rw [State.link, State.erased, answerLanes_partner _ _ hl, Vec.get_gen]
  rfl

/-- ERASE leaves a lane its messages and adds what the lane is owed (R71, R95, R173). -/
theorem erased_link_lane (s : State) (i : LaneNo) :
    s.erased.link (.lane i) = (s.link (.lane i)).withoutPlaces.pushAll (s.eraseAnswers i) := by
  rw [State.link, State.erased, answerLanes_lane, Vec.get_gen]
  rfl

/-- Settles O49: ERASE puts every block to its reset value, and each link by its lemma. -/
theorem eraseEmpties : Obligations.EraseEmpties := by
  intro corr s h
  have halert : (s.erased.answer .service corr .done).alertLine = false := by
    simp [State.alertLine, State.erased, StatusUnit.blank]
  have hservice : (s.erased.answer .service corr .done).link .service = { s.link .service with
      queue := (s.link .service).queue.filter (fun e => !e.isPlace) ++ [.run (.answer corr .done .bare) []] } := by
    rw [State.link_answer, erased_link_partner s rfl]
    rfl
  have hdispatch : (s.erased.answer .service corr .done).link .dispatch = { s.link .dispatch with
      queue := (s.link .dispatch).queue.filter fun e => !e.isPlace } := by
    rw [State.link_answer_ne (l := .service) (m := .dispatch) _ _ _ _ nofun, erased_link_partner s rfl]
    rfl
  have hlane : ∀ i, (s.erased.answer .service corr .done).link (.lane i) = { s.link (.lane i) with
      queue := (s.link (.lane i)).queue.filter (fun e => !e.isPlace) ++
        ((s.engine.eraseAnswers i ++ (s.lane i).queue.map fun q => Message.answer q.corr .notRunning .bare).map
          fun m => QueueEntry.run m []) } := fun i => by
    rw [State.link_answer_ne (l := .service) (m := .lane i) _ _ _ _ nofun, erased_link_lane]
    rfl
  exact ⟨_, exec_erase h corr, rfl, rfl, rfl, rfl, rfl, rfl, rfl, rfl, rfl, rfl, halert, rfl, hservice, hdispatch,
    isPlace_iff, fun i => ⟨fun _ _ => eraseAnswers_own, eraseAnswers_none⟩, hlane⟩

end Sys2Proof.Machine
end

section
/-! SETUP BEGIN (R162, R163, R166). -/

namespace Sys2Proof.Machine

/-! ### Abandoning a sequence (R166) -/

theorem abandon_outside {s : State} (h : s.status.part ≠ .setup) : s.abandon = s := by
  rw [State.abandon, StatusUnit.abandoned, if_neg h]

theorem abandon_open {s : State} {prior : PriorState} (h : s.status.part = .setup) (hprior : s.status.prior = some prior) :
    s.abandon = { s with status := { s.status with
      part := prior.part
      prior := none
      staged := none } } := by
  rw [State.abandon, StatusUnit.abandoned, if_pos h, hprior]
  rfl

/-! ### Nothing in transit (R163 check 3) -/

/-- A route is empty for SETUP BEGIN when each of its queue values is (R98). -/
theorem RouteQueue.idle_iff (q : RouteQueue) : q.idle = true ↔
    q.live.bottom - q.live.top = 0 ∧ q.store.bottom - q.store.top = 0 ∧ q.overflow = [] ∧ q.buffer = none ∧
    q.pending = none ∧ q.nextSeq = 1 := by
  simp [RouteQueue.idle, Ring.occupancy, and_assoc]

theorem nothingInTransit_iff (s : State) : s.nothingInTransit = true ↔ NothingInTransit s := by
  simp [State.nothingInTransit, NothingInTransit, RouteQueue.idle_iff, Engine.isIdle_iff, and_assoc, Bool.or_eq_true,
    or_iff_not_imp_left]

/-! ### SETUP BEGIN (R163) -/

section

variable {corr n flags : Byte} {s : State}

theorem exec_setupBegin (h : s.Hears .service 2) :
    exec (.setupBegin .service corr [n, flags]) s = .next (setupBeginAct .service corr (n, flags) s) :=
  congrArg Host.Outcome.next (request_taken (parse := parseTwo) (p := [n, flags]) h (Nat.zero_le _) rfl)

theorem setupBeginAct_open (h : s.status.part = .setup) :
    setupBeginAct .service corr (n, flags) s = s.abandon.answer .service corr .sequenceBroken := if_pos h

theorem setupBeginAct_badCount (h : s.status.part ≠ .setup) (hn : n.toNat = 0 ∨ 4 < n.toNat) :
    setupBeginAct .service corr (n, flags) s = s.answer .service corr .badParameter := by
  have hnone : byteIn 1 4 n = none := if_neg (by omega)
  simp only [setupBeginAct, if_neg h, hnone]

theorem setupBeginAct_inTransit (hpart : s.status.part = .running) (hone : 1 ≤ n.toNat) (hfour : n.toNat ≤ 4)
    (htransit : ¬ NothingInTransit s) :
    setupBeginAct .service corr (n, flags) s = s.answer .service corr .notEmpty := by
  have hsome : byteIn 1 4 n = some n.toNat := if_pos ⟨hone, hfour⟩
  have hbusy : s.nothingInTransit = false := Bool.eq_false_iff.mpr fun h => htransit ((nothingInTransit_iff s).mp h)
  simp [setupBeginAct, hpart, hsome, hbusy]

theorem setupBeginAct_opens (h : s.status.part ≠ .setup) (hone : 1 ≤ n.toNat) (hfour : n.toNat ≤ 4)
    (hempty : s.status.part = .blank ∨ NothingInTransit s) :
    setupBeginAct .service corr (n, flags) s = (s.openSetup n.toNat flags).answer .service corr .done := by
  have hsome : byteIn 1 4 n = some n.toNat := if_pos ⟨hone, hfour⟩
  have hpass : ¬ (s.status.part = .running ∧ s.nothingInTransit = false) := by
    rintro ⟨hrun, hbusy⟩
    obtain hblank | hquiet := hempty
    · exact PartState.noConfusion (hblank.symm.trans hrun)
    · exact Bool.eq_false_iff.mp hbusy ((nothingInTransit_iff s).mpr hquiet)
  simp only [setupBeginAct, if_neg h, hsome, if_neg hpass]

end

/-! ### The opened sequence (R163) -/

/-- The prior state is RUNNING for a RUNNING part and BLANK for another. -/
theorem PartState.prior_eq (p : PartState) : p.prior = if p = .running then .running else .blank := by cases p <;> rfl

section

variable (s : State) (n : Nat) (flags : Byte)

theorem openSetup_status : (s.openSetup n flags).status = { s.status.raiseIf s.cutover.nearDue .cutoverNear with
    part := .setup
    prior := some (if s.status.part = .running then .running else .blank)
    staged := some ⟨n, (List.range n).map fun i => flags.getLsbD i, []⟩ } := by
  rw [← PartState.prior_eq]
  rfl

/-- A lane's queue is emptied, its hold kept (R71). -/
theorem openSetup_lane (i : LaneNo) : (s.openSetup n flags).lane i = { s.lane i with queue := [] } := by
  rw [State.lane, State.openSetup, Intake.emptied, Vec.get_gen]
  rfl

/-- A lane's queued requests are answered NOT_RUNNING in their order (R71). -/
theorem openSetup_link_lane (i : LaneNo) : (s.openSetup n flags).link (.lane i) =
    (s.link (.lane i)).pushAll ((s.lane i).queue.map fun q => .answer q.corr .notRunning .bare) :=
  answerLanes_lane _ _ i

theorem openSetup_link_partner {l : LinkId} (hl : isPartner l = true) : (s.openSetup n flags).link l = s.link l :=
  answerLanes_partner _ _ hl

end

/-- Settles O45: each check of SETUP BEGIN, then what an opened sequence is block by block. -/
theorem setupBegins : Obligations.SetupBegins := by
  refine ⟨fun s => ⟨abandon_outside, fun prior hin hprior => ?abandon⟩, fun corr n flags s hears => ?_⟩
  case abandon =>
    rw [abandon_open hin hprior]
    cases prior <;> rfl
  simp only [exec_setupBegin hears]
  refine ⟨fun hopen => congrArg _ (setupBeginAct_open hopen), fun hout =>
    ⟨fun hn => congrArg _ (setupBeginAct_badCount hout hn), fun hone hfour => ⟨fun hrun htransit => congrArg _ (setupBeginAct_inTransit hrun hone hfour htransit), fun hempty =>
      ⟨_, congrArg _ (setupBeginAct_opens hout hone hfour hempty), openSetup_status s n.toNat flags, fun i => ⟨?lane, ?link⟩,
        rfl, ?service, ?dispatch, rfl, rfl, rfl, rfl, rfl, rfl, rfl⟩⟩⟩⟩
  case lane => exact openSetup_lane s n.toNat flags i
  case link =>
    rw [State.link_answer_ne (l := .service) (m := .lane i) _ _ _ _ nofun, openSetup_link_lane]
    simp [Link.pushAll]
  case service => rw [State.link_answer, openSetup_link_partner s _ _ rfl]
  case dispatch =>
    rw [State.link_answer_ne (l := .service) (m := .dispatch) _ _ _ _ nofun, openSetup_link_partner s _ _ rfl]

end Sys2Proof.Machine
end

section
/-! ROUTE DEFINE (R164, R166). -/

namespace Sys2Proof.Machine

/-! ### The fields of a ROUTE DEFINE (R164, R174) -/

theorem byteIn_of_range {lo hi : Nat} {b : Byte} (h : lo ≤ b.toNat ∧ b.toNat ≤ hi) : byteIn lo hi b = some b.toNat :=
  if_pos h

/-- A field read is its byte's value, in range. -/
theorem byteIn_eq_some {lo hi n : Nat} {b : Byte} (h : byteIn lo hi b = some n) :
    (lo ≤ b.toNat ∧ b.toNat ≤ hi) ∧ n = b.toNat := by
  unfold byteIn at h
  split at h
  · next hb => exact ⟨hb, (Option.some.inj h).symm⟩
  · cases h

/-- A packed field read is its decimal value (R3). -/
theorem packedOf_eq_some {bs : List Byte} {v : Nat} (h : packedOf bs = some v) :
    (∀ d ∈ nibblesOf bs, d ≤ 9) ∧ v = decimal (nibblesOf bs) := by
  rw [packedOf_eq] at h
  split at h
  · next hb => exact ⟨hb, (Option.some.inj h).symm⟩
  · cases h

theorem roundingOf_of_le {b : Byte} (h : b.toNat ≤ 1) : roundingOf b = some (if b = 0#8 then .halfUp else .down) := by
  unfold roundingOf
  split
  · rfl
  · next hzero => rw [if_pos (by bv_omega)]

theorem roundingOf_eq_some {b : Byte} {m : Rounding} (h : roundingOf b = some m) :
    b.toNat ≤ 1 ∧ m = if b = 0#8 then .halfUp else .down := by
  have hle : b.toNat ≤ 1 := by
    unfold roundingOf at h
    split at h
    · next hzero => simp [hzero]
    · split at h
      · next hone => simp [hone]
      · cases h
  rw [roundingOf_of_le hle] at h
  exact ⟨hle, (Option.some.inj h).symm⟩

/-- Fields in range give the configuration they carry. -/
theorem DefineBytes.config_of_range {b : DefineBytes} (h : DefineInRange b) (allow : Bool) :
    b.config allow = some (definedAs b allow) := by
  obtain ⟨hk, hfraction, hrounding, hplus, hminus, hinit, hwindow, ⟨htags, hend⟩, hwater, hceiling⟩ := h
  have hbyte : b.plus.toNat ≤ 255 := Nat.le_of_lt_succ b.plus.isLt
  have hpacked : packedOf b.ceiling = some (decimal (nibblesOf b.ceiling)) := by rw [packedOf_eq, if_pos hceiling]
  simp only [DefineBytes.config, byteIn_of_range hk, byteIn_zero_of_le hfraction, roundingOf_of_le hrounding,
    byteIn_of_range ⟨hplus, hbyte⟩, hpacked, byteIn_of_range hminus, byteIn_of_range hinit, byteIn_of_range hwindow,
    byteIn_zero_of_le (Nat.le_trans htags hend), byteIn_zero_of_le hend, if_pos (And.intro htags hwater)]
  rfl

/-- Only fields in range give a configuration. -/
theorem DefineBytes.range_of_config {b : DefineBytes} {allow : Bool} {c : RouteConfig} (h : b.config allow = some c) :
    DefineInRange b := by
  unfold DefineBytes.config at h
  split at h
  · next hk hfraction hrounding hplus hceiling =>
    obtain ⟨⟨hpos, -⟩, rfl⟩ := byteIn_eq_some hplus
    split at h
    · next hminus hinit hwindow hstart hend =>
      obtain ⟨-, rfl⟩ := byteIn_eq_some hstart
      obtain ⟨⟨-, hseven⟩, rfl⟩ := byteIn_eq_some hend
      split at h
      · next htags =>
        exact ⟨(byteIn_eq_some hk).1, (byteIn_eq_some hfraction).1.2, (roundingOf_eq_some hrounding).1, hpos,
          (byteIn_eq_some hminus).1, (byteIn_eq_some hinit).1, (byteIn_eq_some hwindow).1, ⟨htags.1, hseven⟩, htags.2,
          (packedOf_eq_some hceiling).1⟩
      · cases h
    · cases h
  · cases h

theorem DefineBytes.config_eq_none {b : DefineBytes} (h : ¬ DefineInRange b) (allow : Bool) : b.config allow = none :=
  Option.eq_none_iff_forall_ne_some.mpr fun _ hc => h (range_of_config hc)

/-! ### ROUTE DEFINE against the part state and the sequence (R164) -/

section

variable {corr : Byte} {p : List Byte} {b : DefineBytes} {g : Staged} {s : State}

theorem exec_routeDefine (h : s.Hears .service 19) (hlen : p.length = 19) (hp : parseDefine p = some b) :
    exec (.routeDefine .service corr p) s = .next (routeDefineAct .service corr b s) :=
  congrArg Host.Outcome.next (request_taken (hlen ▸ h) (Nat.zero_le _) hp)

theorem routeDefineAct_outside (h : s.status.part ≠ .setup) :
    routeDefineAct .service corr b s = s.answer .service corr .sequenceBroken := if_neg h

theorem routeDefineAct_staged (h : s.status.part = .setup) (hg : s.status.staged = some g) :
    routeDefineAct .service corr b s = routeDefineStaged .service corr b g s := by
  simp only [routeDefineAct, if_pos h, hg]

/-- The route expected is the one after those staged, while there is one (R162). -/
theorem Staged.expects_iff (g : Staged) (n : Nat) :
    g.expects = some n ↔ g.routes.length < g.count ∧ n = g.routes.length := by
  unfold Staged.expects
  split
  · next hroom => simp [hroom, eq_comm]
  · next hfull => simp [hfull]

theorem routeDefineStaged_outOfPlace (h : b.route.toNat ≠ g.routes.length ∨ g.count ≤ g.routes.length) :
    routeDefineStaged .service corr b g s = s.abandon.answer .service corr .sequenceBroken := by
  refine if_neg fun hexpects => ?_
  obtain ⟨hroom, hroute⟩ := (g.expects_iff _).mp hexpects
  exact h.elim (absurd hroute) (absurd hroom ∘ Nat.not_lt.mpr)

theorem routeDefineStaged_outOfRange (hroute : b.route.toNat = g.routes.length) (hroom : g.routes.length < g.count)
    (hrange : ¬ DefineInRange b) :
    routeDefineStaged .service corr b g s = s.abandon.answer .service corr .badParameter := by
  rw [routeDefineStaged, if_pos ((g.expects_iff _).mpr ⟨hroom, hroute⟩), DefineBytes.config_eq_none hrange]

theorem routeDefineStaged_inRange (hroute : b.route.toNat = g.routes.length) (hroom : g.routes.length < g.count)
    (hrange : DefineInRange b) {allow : Bool} (hallow : allow = g.nextAllow) :
    routeDefineStaged .service corr b g s = State.answer { s with status := { s.status with
      staged := some { g with routes := g.routes ++ [definedAs b allow] } } } .service corr .done
      (.staged (definedAs b allow).highWater) := by
  rw [routeDefineStaged, if_pos ((g.expects_iff _).mpr ⟨hroom, hroute⟩), DefineBytes.config_of_range hrange, hallow]
  rfl

end

/-- Settles O46: the checks in their order, each with its outcome. -/
theorem routeDefinesStaged : Obligations.RouteDefinesStaged := by
  refine ⟨⟨fun _ _ _ _ _ _ _ _ _ _ _ _ _ _ _ _ _ _ _ => rfl, fun p hlen =>
    parseDefine_readsOnly.eq_none (mt List.mem_singleton.mp hlen)⟩, fun corr p b s h hlen hp => ?_⟩
  simp only [exec_routeDefine h hlen hp]
  refine ⟨fun hout => congrArg _ (routeDefineAct_outside hout), fun g hpart hg => ?_⟩
  rw [routeDefineAct_staged hpart hg]
  exact ⟨fun hplace => congrArg _ (routeDefineStaged_outOfPlace hplace), fun hroute hroom =>
    ⟨fun hrange => congrArg _ (routeDefineStaged_outOfRange hroute hroom hrange), fun hrange =>
      ⟨DefineBytes.config_ok (DefineBytes.config_of_range hrange _),
        congrArg _ (routeDefineStaged_inRange hroute hroom hrange rfl)⟩⟩⟩

end Sys2Proof.Machine
end

section
/-! SETUP END (R19, R96 to R98, R115, R134, R165). -/

namespace Sys2Proof.Machine

/-! ### The layout (R96) -/

/-- The routes below the next route are those below this one, and this one. -/
theorem routesBelow_succ : ∀ r : RouteNo, ((List.finRange 4).filter fun q : RouteNo => q.val < r.val + 1) =
    ((List.finRange 4).filter fun q : RouteNo => q.val < r.val) ++ [r] := by decide

theorem ringsBelow_succ (config : Vector (Option RouteConfig) 4) (r : RouteNo) :
    ringsBelow config (r.val + 1) = ringsBelow config r.val + ringSize (Vec.get config r) := by
  rw [ringsBelow, routesBelow_succ]
  simp [ringsBelow]

theorem Staged.get_config (g : Staged) (r : RouteNo) : Vec.get g.config r = g.routes[r.val]? := Vec.get_gen _ _

/-- The store rings below a route are those of the staged routes before it. -/
theorem ringsBelow_staged (g : Staged) {n : Nat} (hn : n ≤ 4) :
    ringsBelow g.config n = ((g.routes.take n).map fun c => 2 ^ c.k).sum := by
  induction n with
  | zero => simp [ringsBelow]
  | succ n ih =>
    have hroute := ringsBelow_succ g.config ⟨n, hn⟩
    rw [hroute, ih (Nat.le_of_succ_le hn), g.get_config, List.take_add_one]
    cases g.routes[n]? <;> simp [ringSize]

theorem poolStart_staged (g : Staged) : poolStart g.config = 64 + ((g.routes.take 4).map fun c => 2 ^ c.k).sum := by
  rw [poolStart, ringsBelow_staged g (le_refl 4)]
  rfl

theorem storePlace_staged {g : Staged} {r : RouteNo} {c : RouteConfig} (h : g.routes[r.val]? = some c) :
    storePlace g.config r = ⟨64 + ((g.routes.take r.val).map fun c => 2 ^ c.k).sum, 2 ^ c.k⟩ := by
  rw [storePlace, ringsBelow_staged g r.isLt.le, g.get_config, h]
  rfl

/-! ### The checks of SETUP END (R165) -/

section

variable {corr : Byte} {g : Staged} {s : State}

theorem exec_setupEnd (h : s.Hears .service 0) :
    exec (.setupEnd .service corr []) s = .next (setupEndAct .service corr s) :=
  congrArg Host.Outcome.next (request_taken (parse := parseNone) (p := []) h (Nat.zero_le _) rfl)

theorem setupEndAct_outside (h : s.status.part ≠ .setup) :
    setupEndAct .service corr s = s.answer .service corr .sequenceBroken := if_neg h

theorem setupEndAct_incomplete (h : s.status.part = .setup) (hg : s.status.staged = some g)
    (hroom : g.routes.length < g.count) :
    setupEndAct .service corr s = s.abandon.answer .service corr .sequenceBroken := by
  simp [setupEndAct, h, hg, Staged.expects, hroom]

theorem setupEndAct_tooLarge (h : s.status.part = .setup) (hg : s.status.staged = some g)
    (hall : g.count ≤ g.routes.length) (hlarge : 2048 < poolStart g.config) :
    setupEndAct .service corr s = s.abandon.answer .service corr .layoutTooLarge := by
  simp [setupEndAct, h, hg, Staged.expects, Nat.not_lt.mpr hall, Staged.fits, Config.storeSlots, Nat.not_le.mpr hlarge]

theorem setupEndAct_installs (h : s.status.part = .setup) (hg : s.status.staged = some g)
    (hall : g.count ≤ g.routes.length) (hfits : poolStart g.config ≤ 2048) :
    setupEndAct .service corr s = (s.install g).answer .service corr .done := by
  simp [setupEndAct, h, hg, Staged.expects, Nat.not_lt.mpr hall, Staged.fits, Config.storeSlots, hfits]

end

/-! ### The configuration in force (R165) -/

section

variable (s : State) {g : Staged} {r : RouteNo} {c : RouteConfig}

theorem install_route (h : Vec.get g.config r = some c) :
    (s.install g).route r = ⟨.down .start, c.init, [], 0, .stopped, none⟩ := by
  rw [State.route, State.install, Vec.get_gen, h]
  rfl

theorem install_account (h : Vec.get g.config r = some c) :
    (s.install g).account r = ⟨Totals.zero, 0, false, c.ceiling, c.ceiling⟩ := by
  rw [State.account, State.install, Vec.get_gen, h]
  rfl

/-- A kept route keeps its batch and its opened time (R98). -/
theorem install_queue_kept (h : Vec.get g.config r = some c) (hold : s.defined r = true) : (s.install g).queue r =
    ⟨(s.queue r).batch, 1, (s.queue r).opened, ⟨0, 0, 0⟩, ⟨0, 0, 0⟩, [], none, none, false⟩ := by
  obtain ⟨old, hconfig⟩ := Option.isSome_iff_exists.mp hold
  rw [State.queue, State.install, Vec.get_gen, h, hconfig]
  rfl

theorem install_queue_new (h : Vec.get g.config r = some c) (hold : s.defined r = false) : (s.install g).queue r =
    ⟨1, 1, s.time, ⟨0, 0, 0⟩, ⟨0, 0, 0⟩, [], none, none, false⟩ := by
  have hconfig : s.config r = none := by simpa [State.defined] using hold
  rw [State.queue, State.install, Vec.get_gen, h, hconfig]
  rfl

theorem install_route_undefined (h : Vec.get g.config r = none) : ((s.install g).route r).stream = none := by
  rw [State.route, State.install, Vec.get_gen, h]
  rfl

theorem install_account_undefined (h : Vec.get g.config r = none) :
    (s.install g).account r = ⟨Totals.zero, 0, false, 0, 0⟩ := by
  rw [State.account, State.install, Vec.get_gen, h]
  rfl

theorem install_term (n : TerminalNo) : (s.install g).term n = (s.term n).atSetup s.status.config g.config := Vec.get_gen _ _

end

/-- A terminal whose route is removed: ACTIVE becomes HELD, the history goes (R19). -/
theorem Terminal.atSetup_removed {e : Terminal} {old new : Vector (Option RouteConfig) 4}
    (hold : (Vec.get old e.route).isSome) (hnew : Vec.get new e.route = none) :
    e.atSetup old new = { e with
      state := (if e.state = .active then .held else e.state)
      history := [] } := by
  rw [Terminal.atSetup, if_pos ⟨hold, hnew⟩]
  cases hstate : e.state <;> rfl

theorem Terminal.atSetup_kept {e : Terminal} {old new : Vector (Option RouteConfig) 4}
    (h : (Vec.get old e.route).isSome = false ∨ (Vec.get new e.route).isSome) : e.atSetup old new = e := by
  refine if_neg fun hremoved => ?_
  obtain ⟨hold, hnew⟩ := hremoved
  simp [hold, hnew] at h

/-- Settles O47: the layout, the checks in their order, then the state brought into force block by block. -/
theorem setupEndsInForce : Obligations.SetupEndsInForce := by
  refine ⟨fun corr s h hout => by rw [exec_setupEnd h, setupEndAct_outside hout],
    fun g => ⟨poolStart_staged g, fun r c hc => storePlace_staged hc⟩, fun corr g s h hpart hg => ?_⟩
  simp only [exec_setupEnd h]
  refine ⟨fun hroom => congrArg _ (setupEndAct_incomplete hpart hg hroom), fun hall =>
    ⟨fun hlarge => congrArg _ (setupEndAct_tooLarge hpart hg hall hlarge), fun hfits =>
      ⟨_, congrArg _ (setupEndAct_installs hpart hg hall hfits), rfl, rfl, rfl, fun r c hc =>
        ⟨install_route s hc, install_account s hc, install_queue_kept s hc, install_queue_new s hc⟩, fun r hnone =>
        ⟨install_route_undefined s hnone, install_account_undefined s hnone⟩, fun n hold hnew => ?removed,
        fun n hkept => ?kept, State.link_answer _ _ _ _ _, rfl, rfl, rfl, rfl⟩⟩⟩
  case removed => exact (install_term s n).trans (Terminal.atSetup_removed hold hnew)
  case kept => exact (install_term s n).trans (Terminal.atSetup_kept hkept)

end Sys2Proof.Machine
end

section
/-! The warm restore (R20, R37, R56, R94, R113, R135, R147, R172), part 1: what starts anew, and the records. -/

namespace Sys2Proof.Machine

/-! ### POWER_LOSS before a restore (R171) -/

theorem Engine.lapse_lapse (e : Engine) : e.lapse.lapse = e.lapse := by cases e <;> rfl

/-- A link restarts alike from what POWER_LOSS leaves of it: only its line is read (R161). -/
theorem startLinks_lapse (s : State) (straps : BitVec 6) : startLinks s.lapse.links straps = startLinks s.links straps := by
  refine Vec.eq_of_get fun j => ?_
  simp only [startLinks, State.lapse, Vec.get_gen]
  rfl

/-- What is not retained plays no part in a restore (R171, R172). -/
theorem restoreStart_powerLoss (s : State) (straps : BitVec 6) :
    restoreStart { s.lapse with supply := .off } straps = restoreStart s straps := by
  have hengine : s.lapse.engine.lapse = s.engine.lapse := s.engine.lapse_lapse
  have hlinks := startLinks_lapse s straps
  simp only [restoreStart, State.lapse, State.restoreStatus, State.abandonWrap] at hengine hlinks ⊢
  rw [hengine, hlinks]
  rfl

theorem warmRestore_powerLoss (s : State) (straps : BitVec 6) :
    ({ s.lapse with supply := .off } : State).warmRestore straps = s.warmRestore straps := by
  rw [warmRestore_eq, warmRestore_eq, restoreStart_powerLoss]

theorem exec_warmRestore {straps : BitVec 6} {s : State} (h : s.supply ≠ .off ∨ s.valid = true) :
    exec (.warmRestore straps) s = .next (s.warmRestore straps) := by
  have hdue : s.restoreDue = true := by
    unfold State.restoreDue
    split
    · next hoff => exact h.resolve_left (not_not_intro hoff)
    · rfl
  exact congrArg Host.Outcome.next (if_pos hdue)

/-! ### Blocks at their start (R135, R161, R172) -/

/-- After the families' operations are undone a restore writes the dispatch states, and of the rest only what a resumed
procedure does. -/
theorem StartKept.of_undone {v u t : State} (hu : StartKept v u) (ht : StartKept u.restoreDispatch.releaseAll t) :
    StartKept { v with dispatch := t.dispatch } t :=
  ⟨ht.supply.trans hu.supply, ht.valid.trans hu.valid, ht.engine.trans hu.engine, ht.links.trans hu.links,
    ht.intake.trans hu.intake, rfl, ht.clock.trans hu.clock, ht.unset.trans hu.unset, ht.setting.trans hu.setting,
    ht.near.trans hu.near, ht.enables.trans hu.enables, ht.config.trans hu.config, ht.staged.trans hu.staged,
    ht.part.trans hu.part, fun h => ht.restored (hu.restored h)⟩

theorem warmRestore_startKept (s : State) (straps : BitVec 6) :
    StartKept { restoreSettled s straps with dispatch := (s.warmRestore straps).dispatch } (s.warmRestore straps) := by
  rw [warmRestore_mid, restoreMid_eq]
  exact .of_undone (undoAll_start _) (resume_start _)

/-- A defined route is DOWN with reason RESTORE (R135). -/
theorem warmRestore_route_defined {s : State} {straps : BitVec 6} {r : RouteNo} {c : RouteConfig} (h : s.config r = some c) :
    (s.warmRestore straps).route r = ⟨.down .restore, c.init, [], 0, .stopped, none⟩ := by
  obtain ⟨-, hconfig, -⟩ := warmRestore_tail s straps
  obtain ⟨-, hkept, -⟩ := lapse_abandoned s.status
  rw [warmRestore_route, State.config, hconfig, restoreStart_status_part, hkept]
  exact congrArg dispatchAtRestore h

/-- With no procedure under way a restore ends where it would resume one. -/
theorem warmRestore_eq_mid {s : State} (straps : BitVec 6) (h : s.cutover.stage = .idle) :
    s.warmRestore straps = restoreMid s straps := by
  rw [warmRestore_mid, resume_idle _ (restoreMid_stage s straps .idle h)]

/-- With no procedure and no cut-over roll the restore raises RESTORED alone and logs nothing (R172). -/
theorem warmRestore_status_quiet {s : State} (straps : BitVec 6) (hstage : s.cutover.stage = .idle)
    (hrolls : ∀ f, (s.family f).op ≠ .cutoverRoll) :
    (s.warmRestore straps).status = s.status.lapse.abandoned.raise .restored := by
  rw [warmRestore_eq_mid straps hstage, (restoreMid_next s straps hrolls).2, restoreStart_status_part]

theorem warmRestore_stage (s : State) (straps : BitVec 6) : (s.warmRestore straps).cutover.stage = .idle := by
  rw [warmRestore_mid, resume_stage]

theorem restoreStarts (straps : BitVec 6) (s : State) : RestoreStarts straps s (s.warmRestore straps) := by
  have hkept := warmRestore_startKept s straps
  have hroute := fun r c => warmRestore_route_defined (s := s) (straps := straps) (r := r) (c := c)
  have hstage := warmRestore_stage s straps
  have hquiet := warmRestore_status_quiet (s := s) straps
  obtain ⟨hsupply, hvalid, hengine, hlinks, hintake, hcutover⟩ := restoreSettled_facts s straps
  have hstatus := restoreStart_status_part s straps
  obtain ⟨henables, hconfig, hstaged, hflags, hlog, hoverrun, hpart, hprior⟩ := lapse_abandoned s.status
  have hrestored : holdsFlag (restoreSettled s straps).status.flags .restored = true := by
    rw [hstatus, hflags, holdsFlag_mask]
    rfl
  rw [← hstatus] at henables hconfig hstaged hpart hprior
  generalize restoreSettled s straps = v at *
  generalize s.warmRestore straps = t at *
  refine ⟨hkept.supply.trans hsupply, hkept.valid.trans hvalid, hkept.engine.trans hengine, hkept.restored hrestored,
    hkept.enables.trans henables, hkept.config.trans hconfig, hkept.staged.trans hstaged,
    fun hout => hkept.part.trans (hpart hout), fun prior hin hp => hkept.part.trans (hprior prior hin hp),
    hroute, hkept.intake.trans hintake, link_of_startLinks (hkept.links.trans hlinks),
    hkept.clock.trans (congrArg (·.clock) hcutover), hkept.unset.trans (congrArg (·.unset) hcutover),
    hkept.setting.trans (congrArg (·.setting) hcutover), hstage, hkept.near.trans (congrArg (·.near) hcutover),
    fun hidle hrolls => ?_⟩
  rw [hquiet hidle hrolls]
  exact ⟨hflags, hlog, hoverrun⟩

/-! ### Records, pool and rings (R94, R99, R104, R113) -/

/-- The rewinds of every route make the OFFERED records in their slots PENDING (R113). -/
theorem warmRestore_at (s : State) (straps : BitVec 6) (n : Nat) :
    (s.warmRestore straps).at? n = (s.at? n).map fun rec =>
      if rec.state = .offered ∧ ((List.finRange 4).any fun r => decide (n ∈ s.slotsOf r)) = true then
        { rec with state := .pending }
      else rec := by
  have hat : (s.warmRestore straps).at? n = (rewindEach (restoreStart s straps) (List.finRange 4)).at? n :=
    congrArg (Store.find · n) (warmRestore_store s straps).slots
  rw [hat, rewindEach_at]
  simp only [restoreStart_slotsOf, Record.rewound, ← ite_and]
  simp only [and_comm]
  rfl

/-- A wrap that held a pool slot gives it to the back of the free list (R94). -/
theorem warmRestore_poolFree (s : State) (straps : BitVec 6) :
    (s.warmRestore straps).qm.poolFree = s.qm.poolFree ++ s.engine.releasedSlots := by
  rw [(warmRestore_store s straps).free, rewindEach_poolFree, restoreStart_poolFree]

theorem releasedSlots_of_pool {e : Engine} {k : ReservationKept} {n : Nat} (hk : e.kept = some k) (hn : k.slot = .pool n) :
    e.releasedSlots = [n] := by
  obtain ⟨route, batch, slot, key⟩ := k
  subst hn
  cases e with
  | idle => cases hk
  | busy k w => cases hk; rfl
  | cut k => cases hk; rfl

theorem releasedSlots_of_noPool {e : Engine} (h : ∀ k n, e.kept = some k → k.slot ≠ .pool n) : e.releasedSlots = [] :=
  List.eq_nil_iff_forall_not_mem.mpr fun n hn => by
    obtain ⟨k, hk, hslot⟩ := reserved_of_mem_releasedSlots hn
    exact h k n hk hslot

/-- The rings of a route as their rewind leaves them (R104, R113). -/
theorem warmRestore_rings (s : State) (straps : BitVec 6) (r : RouteNo) :
    ((s.warmRestore straps).queue r).live = (s.queue r).live.seekOffer (livePlace r) (s.warmRestore straps).qm.slots ∧
    ((s.warmRestore straps).queue r).store =
      (s.queue r).store.seekOffer (s.storePlace r) (s.warmRestore straps).qm.slots ∧
    ((s.warmRestore straps).queue r).overflow = (s.queue r).overflow := by
  have hkept := warmRestore_store s straps
  obtain ⟨hlive, hstore, hoverflow⟩ := hkept.queues r
  rw [hlive, hstore, hoverflow, hkept.slots, restoreStart_queue]
  exact ⟨rfl, rfl, rfl⟩

theorem restoreRecords (straps : BitVec 6) (s : State) : RestoreRecords s (s.warmRestore straps) := by
  have hpool := warmRestore_poolFree s straps
  refine ⟨warmRestore_at s straps, fun k n hk hn => ?_, fun hnone => ?_, fun r => ?_⟩
  · rw [hpool, releasedSlots_of_pool hk hn]
  · rw [hpool, releasedSlots_of_noPool hnone, List.append_nil]
  · obtain ⟨hlive, hstore, hoverflow⟩ := warmRestore_rings s straps r
    rw [hlive, hstore]
    exact ⟨⟨rfl, rfl, seekOffer_atFirstPending _ _ _⟩, ⟨rfl, rfl, seekOffer_atFirstPending _ _ _⟩, hoverflow⟩

end Sys2Proof.Machine
end

section
/-! The warm restore, part 2: batches, accounts and terminals (R11, R20, R56, R94, R113). -/

namespace Sys2Proof.Machine

/-! ### The close due on the abandoned wrap (R113) -/

section

variable {s u : State} {r : RouteNo}

/-- Where no close is due nothing is settled. -/
theorem settleWaiting_notDue (h : NoCloseDue s r) (hp : (u.queue r).pending = (s.queue r).pending)
    (hb : (u.queue r).buffer = none ↔ (s.queue r).buffer = none) : u.settleWaiting r = u := by
  unfold State.settleWaiting
  dsimp only
  split
  · next p hpend =>
    refine if_neg fun hdue => ?_
    obtain ⟨hwait, hfree⟩ := hdue
    obtain hbuffer | hfull := h p (hp.symm.trans hpend)
    · exact CloseWait.noConfusion (hwait.symm.trans hbuffer)
    · exact hfull (hb.mp hfree)
  · rfl

/-- Where a close is due it is performed. -/
theorem settleWaiting_due {p : ClosePending} (hp : (u.queue r).pending = some p) (hwait : p.wait = .wrap)
    (hb : (u.queue r).buffer = none) : u.settleWaiting r = u.performClose r p.reasonNow := by
  simp [State.settleWaiting, hp, hwait, hb]

/-- A close is due where one is pending on a wrap with the buffer FREE. -/
theorem closeDue_of_not (h : ¬ NoCloseDue s r) :
    ∃ p, (s.queue r).pending = some p ∧ p.wait = .wrap ∧ (s.queue r).buffer = none := by
  unfold NoCloseDue at h
  push Not at h
  obtain ⟨p, hp, hwait, hb⟩ := h
  refine ⟨p, hp, ?_, hb⟩
  cases hw : p.wait with
  | wrap => rfl
  | buffer => exact absurd hw hwait

/-- A close performed on a route as its rewind leaves it begins the next batch (R109, R113). -/
theorem closeDone_of_performClose {t : State} {why : CloseReason} {place : RingPlace} {slots : List (Nat × Record)}
    (htime : u.time = s.time) (hq : u.queue r = (s.queue r).rewound r place slots) (ha : u.account r = s.account r)
    (hsame : RouteSame r (u.performClose r why) t) : CloseDone s t r why := by
  obtain ⟨hqueue, haccount⟩ := hsame
  rw [performClose_queue, hq] at hqueue
  rw [performClose_account, ha] at haccount
  rw [CloseDone, hqueue, haccount, ← htime]
  refine ⟨rfl, rfl, rfl, rfl, rfl, rfl, u.closeRecord r why, rfl, ?_, rfl, rfl, ?_, ?_⟩
  · simp only [State.closeRecord, hq]
    rfl
  · exact congrArg RouteAccount.totals ha
  · exact congrArg RouteAccount.offline ha

/-- A route that only its rewind touches keeps account and queue state (R56, R113). -/
theorem routeKept_of_rewound {t : State} {place : RingPlace} {slots : List (Nat × Record)}
    (hq : t.queue r = (s.queue r).rewound r place slots) (ha : t.account r = s.account r) : RouteKept s t r := by
  refine ⟨ha, ?_⟩
  rw [hq]
  rfl

end

/-! ### Routes and terminals before a procedure is resumed -/

section

variable {s : State} (straps : BitVec 6)

/-- The route's rewind alone where no close is due (R113). -/
theorem restoreMid_notDue {r : RouteNo} (h : NoCloseDue s r) :
    (restoreMid s straps).queue r = (s.queue r).rewound r (s.storePlace r)
      (rewindEach (restoreStart s straps) (List.finRange 4)).qm.slots ∧
    (restoreMid s straps).account r = s.account r := by
  obtain ⟨u, -, -, hq, ha, hsame⟩ := restoreMid_turn s straps r
  have hp : (u.queue r).pending = (s.queue r).pending := by
    rw [hq]
    rfl
  have hb : (u.queue r).buffer = none ↔ (s.queue r).buffer = none := by
    rw [hq]
    exact Option.map_eq_none_iff
  rw [settleWaiting_notDue h hp hb] at hsame
  exact ⟨hsame.1.trans hq, hsame.2.trans ha⟩

theorem restoreMid_routeKept {r : RouteNo} (h : NoCloseDue s r) : RouteKept s (restoreMid s straps) r := by
  obtain ⟨hq, ha⟩ := restoreMid_notDue straps h
  exact routeKept_of_rewound hq ha

/-- The close due is performed with its reason as the deferred mark gives it (R111, R113). -/
theorem restoreMid_closeDone {r : RouteNo} {p : ClosePending} (hp : (s.queue r).pending = some p) (hwait : p.wait = .wrap)
    (hb : (s.queue r).buffer = none) : CloseDone s (restoreMid s straps) r p.reasonNow := by
  obtain ⟨u, -, htime, hq, ha, hsame⟩ := restoreMid_turn s straps r
  have hp' : (u.queue r).pending = some p := by
    rw [hq]
    exact hp
  have hb' : (u.queue r).buffer = none := by
    rw [hq]
    exact Option.map_eq_none_iff.mpr hb
  rw [settleWaiting_due hp' hwait hb'] at hsame
  exact closeDone_of_performClose htime hq ha hsame

/-- A terminal whose route closes no batch is release-tested as its rewind leaves it (R11, R20). -/
theorem restoreMid_term_notDue {n : TerminalNo} (h : NoCloseDue s (s.term n).route) :
    (restoreMid s straps).term n = release .idle n (restoredEntry s n) := by
  obtain ⟨u, -, hterm, hp, hb, hmid⟩ := restoreMid_term s straps n
  rw [hmid, settleWaiting_notDue h hp hb, hterm]

/-- A terminal whose route closes its batch has its totals zeroed before the release test (R11, R20, R109). -/
theorem restoreMid_term_due {n : TerminalNo} (h : ¬ NoCloseDue s (s.term n).route) :
    (restoreMid s straps).term n = release .idle n { restoredEntry s n with totals := Totals.zero } := by
  obtain ⟨u, hidle, hterm, hp, hb, hmid⟩ := restoreMid_term s straps n
  obtain ⟨p, hpend, hwait, hfree⟩ := closeDue_of_not h
  have hroute : (u.term n).route = (s.term n).route := by rw [hterm, restoredEntry_route]
  rw [hmid, settleWaiting_due (hp.trans hpend) hwait (hb.mpr hfree), performClose_term_on _ hroute, hidle, hterm,
    release_release]

end

/-- The release test by its condition (R11). -/
theorem release_eq_cases (engine : Engine) (n : TerminalNo) (e : Terminal) :
    (PassesRelease engine n e → release engine n e = Terminal.vacant) ∧
    (¬ PassesRelease engine n e → release engine n e = e) := by
  rw [← releasable_iff]
  exact ⟨fun h => if_pos h, fun h => if_neg h⟩

theorem restoreBatches (straps : BitVec 6) (s : State) : RestoreBatches s (s.warmRestore straps) := by
  intro hstage
  rw [warmRestore_eq_mid straps hstage]
  refine ⟨fun r => restoreMid_routeKept straps, fun r p => restoreMid_closeDone straps, fun n =>
    ⟨fun hkept => ?_, fun hdue => ?_⟩⟩
  · rw [restoreMid_term_notDue straps hkept]
    exact release_eq_cases .idle n (rewoundEntry s n)
  · rw [restoreMid_term_due straps hdue]
    exact release_eq_cases .idle n { rewoundEntry s n with totals := Totals.zero }

end Sys2Proof.Machine
end

section
/-! The warm restore, part 3: key families and a resumed cut-over (R37, R111, R144, R145, R147). -/

namespace Sys2Proof.Machine

/-! ### Families undone (R37) -/

/-- An operation undone gives back the prior contents. -/
theorem undoneFamily_of_op {k : Family} {prior : FamilyRecord} (hop : k.op ≠ .none) (hprior : k.prior = some prior) :
    undoneFamily k = ⟨prior, .none, none⟩ := by
  unfold undoneFamily
  split
  · next hnone => exact absurd hnone hop
  · rw [Family.undone, hprior]
    rfl

theorem undoneFamily_of_none {k : Family} (hop : k.op = .none) : undoneFamily k = k := by
  unfold undoneFamily
  rw [hop]

/-- With no procedure under way a restore undoes a family's operation and no more. -/
theorem warmRestore_family_idle {s : State} (straps : BitVec 6) (h : s.cutover.stage = .idle) (f : FamilyNo) :
    (s.warmRestore straps).family f = undoneFamily (s.family f) := by
  rw [warmRestore_eq_mid straps h, restoreMid_family]

/-- A procedure under way is under way when it is resumed. -/
theorem restoreMid_underWay {s : State} (straps : BitVec 6) (h : s.cutover.stage ≠ .idle) :
    (restoreMid s straps).cutover.stage ≠ .idle := by rwa [restoreMid_stage s straps _ rfl]

/-- A family whose cut-over roll is undone has had its turn: a resumed procedure passes it by (R37, R147). -/
theorem warmRestore_family_cutoverRoll {s : State} (straps : BitVec 6) {f : FamilyNo}
    (hop : (s.family f).op = .cutoverRoll) : (s.warmRestore straps).family f = undoneFamily (s.family f) := by
  by_cases hstage : s.cutover.stage = .idle
  · exact warmRestore_family_idle straps hstage f
  · rw [warmRestore_mid, resume_family _ (restoreMid_underWay straps hstage), resumeRolling_family, restoreMid_family]
    split
    · next g hg =>
      have hpast := restoreMid_past s straps f hop g hg
      rw [if_neg fun hturn => absurd hturn.1 (not_le.mpr hpast)]
    · rfl

/-! ### ROLL_LOST in the fault log (R37, R169) -/

/-- A log with room keeps its first entry. -/
theorem logWith_cons {entry : FaultEntry} {more : List FaultEntry} (hroom : more.length + 1 < Config.logLimit)
    (e : FaultEntry) : logWith (entry :: more) e = entry :: (more ++ [e]) := by
  have hlen : ¬ Config.logLimit ≤ (entry :: more).length := Nat.not_le.mpr hroom
  rw [logWith, if_neg hlen]
  rfl

/-- The fault log begins with an entry and holds at most `n` others, and FAULT_LOGGED is set. -/
def LogBegins (entry : FaultEntry) (n : Nat) (s : State) : Prop :=
  (∃ more, s.status.log = entry :: more ∧ more.length ≤ n) ∧ holdsFlag s.status.flags .faultLogged = true

/-- A family's turn writes at most one entry to the fault log. -/
theorem rollWhole_logBegins {entry : FaultEntry} {n : Nat} (hn : n + 1 < Config.logLimit) {s : State}
    (h : LogBegins entry n s) (f : FamilyNo) : LogBegins entry (n + 1) (s.rollWhole f) := by
  obtain ⟨⟨more, hlog, hlen⟩, hflag⟩ := h
  unfold State.rollWhole
  dsimp only
  split
  · split
    · refine ⟨⟨more, hlog, Nat.le_succ_of_le hlen⟩, ?_⟩
      simp only [State.finishRoll, State.raiseIf_status, StatusUnit.raiseIf]
      split
      · exact holdsFlag_or _ _ _ hflag
      · exact hflag
    · refine ⟨⟨more ++ [⟨.rollRefused, s.time, f.val⟩], ?_, by simpa using hlen⟩, holdsFlag_or _ _ _ hflag⟩
      have hroom : more.length + 1 < Config.logLimit := by omega
      rw [← logWith_cons hroom, ← hlog]
      rfl
  · exact ⟨⟨more, hlog, Nat.le_succ_of_le hlen⟩, hflag⟩

/-- The turns of some families write at most an entry each. -/
theorem rollEach_logBegins {entry : FaultEntry} (xs : List FamilyNo) {n : Nat} (hn : n + xs.length < Config.logLimit)
    {s : State} (h : LogBegins entry n s) :
    LogBegins entry (n + xs.length) (xs.foldl (fun s f => s.rollWhole f) s) := by
  induction xs generalizing s n with
  | nil => exact h
  | cons x xs ih =>
    rw [List.length_cons] at hn ⊢
    have hlen : n + (xs.length + 1) = n + 1 + xs.length := by omega
    rw [hlen] at hn ⊢
    exact ih hn (rollWhole_logBegins (Nat.lt_of_le_of_lt (Nat.le_add_right _ _) hn) h x)

/-- The eight families' turns leave the first entry of a log of one. -/
theorem resumeRolling_logBegins {entry : FaultEntry} {s : State} (h : LogBegins entry 0 s) :
    ∃ n, LogBegins entry n s.resumeRolling := by
  unfold State.resumeRolling
  split
  · next f _ =>
    have hturns : ((List.finRange 8).filter fun g => decide (f ≤ g)).length ≤ 8 := by
      simpa using List.length_filter_le (fun g => decide (f ≤ g)) (List.finRange 8)
    exact ⟨_, rollEach_logBegins _ (by rw [Nat.zero_add]; exact Nat.lt_of_le_of_lt hturns (by decide)) h⟩
  · exact ⟨0, h⟩

/-- No family but one has a cut-over roll in progress. -/
def RollsOnly (f : FamilyNo) (s : State) : Prop := ∀ g, (s.family g).op = .cutoverRoll → g = f

theorem undoFamily_rollsOnly {f : FamilyNo} {s : State} (h : RollsOnly f s) (g : FamilyNo) :
    RollsOnly f (s.undoFamily g) := by
  intro x hx
  by_cases hg : g = x
  · subst hg
    rw [undoFamily_keys_self, undoneFamily] at hx
    split at hx
    · next hnone => cases hnone.symm.trans hx
    · cases hx
  · exact h x ((undoFamily_keys_ne s hg) ▸ hx)

/-- A family as it was, with the status unit and the clock. -/
def RollStands (f : FamilyNo) (s t : State) : Prop :=
  t.family f = s.family f ∧ t.status = s.status ∧ t.time = s.time

theorem undoFamily_rollStands {f g : FamilyNo} {s : State} (h : RollsOnly f s) (hg : g ≠ f) :
    RollStands f s (s.undoFamily g) := by
  obtain ⟨hcutover, hstatus⟩ := undoFamily_next s g fun hop => hg (h g hop)
  exact ⟨undoFamily_keys_ne s hg, hstatus, congrArg CutoverUnit.clock hcutover⟩

/-- The one cut-over roll undone is the one entry in the fault log (R37). -/
theorem undoAll_logBegins {f : FamilyNo} {s : State} (honly : RollsOnly f s) (hop : (s.family f).op = .cutoverRoll)
    (hlog : s.status.log = []) : LogBegins ⟨.rollLost, s.time, f.val⟩ 0 s.undoAll := by
  obtain ⟨u, -, ⟨hfamily, hstatus, htime⟩, -, hlast, -⟩ := foldl_turn (RollStands f) (RollsOnly f)
    (fun s g => s.undoFamily g) f (fun _ => ⟨rfl, rfl, rfl⟩)
    (fun _ _ _ a b => ⟨b.1.trans a.1, b.2.1.trans a.2.1, b.2.2.trans a.2.2⟩) (fun _ g h => undoFamily_rollsOnly h g)
    (fun _ _ h hg => undoFamily_rollStands h hg) (List.finRange 8) (List.mem_finRange f) (List.nodup_finRange 8) s honly
  have hundone : s.undoAll.status = s.status.logFault ⟨.rollLost, s.time, f.val⟩ := by
    refine hlast.trans ?_
    simp only [State.undoFamily, hfamily, hop, State.logFault, ← hstatus, ← htime]
    rfl
  rw [LogBegins, hundone]
  refine ⟨⟨[], ?_, Nat.le_refl 0⟩, ?_⟩
  · simp [StatusUnit.logFault, logWith, hlog, Config.logLimit]
  · simp only [StatusUnit.logFault, BitVec.or_comm s.status.flags]
    exact holdsFlag_or _ _ _ (by rw [holdsFlag_mask]; rfl)

/-- Before a procedure is resumed the roll lost is the one entry in the fault log. -/
theorem restoreMid_logBegins {s : State} (straps : BitVec 6) {f : FamilyNo} (hop : (s.family f).op = .cutoverRoll)
    (honly : RollsOnly f s) : LogBegins ⟨.rollLost, s.time, f.val⟩ 0 (restoreMid s straps) := by
  have hfamily := restoreSettled_family s straps
  obtain ⟨-, -, htime⟩ := restoreSettled_nextFamily s straps
  have hlog := restoreSettled_log s straps
  have honly' : RollsOnly f (restoreSettled s straps) := fun g hg => honly g (hfamily g ▸ hg)
  have hop' : ((restoreSettled s straps).family f).op = .cutoverRoll := (hfamily f).symm ▸ hop
  rw [restoreMid_eq, LogBegins, (restoreTail_keys _).2.2]
  generalize restoreSettled s straps = v at *
  exact (show v.time = s.time from htime) ▸ undoAll_logBegins honly' hop' hlog

/-- A procedure resumed in ROLLING leaves the first entry of a log of one. -/
theorem resume_rolling_logBegins {m : State} {entry : FaultEntry} (hstage : m.cutover.stage = .rolling)
    (h : LogBegins entry 0 m) : ∃ n, LogBegins entry n m.resume := by
  obtain ⟨n, hlog, hflag⟩ := resumeRolling_logBegins h
  have hresume : m.resume = m.resumeRolling.finishCutover := by rw [State.resume, hstage]
  rw [hresume]
  exact ⟨n, hlog, holdsFlag_or _ _ _ hflag⟩

/-- A restore in ROLLING logs the roll it loses first (R37, R147). -/
theorem warmRestore_rollLost {s : State} (straps : BitVec 6) {f : FamilyNo} (hop : (s.family f).op = .cutoverRoll)
    (hstage : s.cutover.stage = .rolling) (honly : RollsOnly f s) :
    (∃ more, (s.warmRestore straps).status.log = ⟨.rollLost, s.time, f.val⟩ :: more) ∧
    holdsFlag (s.warmRestore straps).status.flags .faultLogged = true := by
  rw [warmRestore_mid]
  obtain ⟨n, ⟨more, hlog, -⟩, hflag⟩ :=
    resume_rolling_logBegins (restoreMid_stage s straps .rolling hstage) (restoreMid_logBegins straps hop honly)
  exact ⟨⟨more, hlog⟩, hflag⟩

theorem restoreFamilies (straps : BitVec 6) (s : State) : RestoreFamilies s (s.warmRestore straps) := by
  refine ⟨fun hstage f => ?_, fun f hop => ⟨fun prior hprior => ?_, warmRestore_rollLost straps hop⟩⟩
  · rw [warmRestore_family_idle straps hstage]
    refine ⟨undoneFamily_of_none, fun hop prior hprior => undoneFamily_of_op (fun hnone => ?_) hprior⟩
    rw [hnone] at hop
    obtain h | h := hop <;> cases h
  · rw [warmRestore_family_cutoverRoll straps hop]
    exact undoneFamily_of_op (by rw [hop]; nofun) hprior

/-! ### A resumed procedure (R144, R145, R147) -/

/-- A resumed procedure ends by raising CUTOVER_DONE (R145). -/
theorem resume_cutoverDone {m : State} (h : m.cutover.stage ≠ .idle) :
    holdsFlag m.resume.status.flags .cutoverDone = true := by
  have hfinish : ∀ u : State, holdsFlag u.finishCutover.status.flags .cutoverDone = true := fun u =>
    (holdsFlag_raise u .cutoverDone .cutoverDone).trans (by simp)
  unfold State.resume
  split
  · next hidle => exact absurd hidle h
  · exact hfinish _
  · exact hfinish _

/-- Resumed in ROLLING, the procedure touches no route. -/
theorem resume_rolling_route {m : State} (h : m.cutover.stage = .rolling) (r : RouteNo) : RouteSame r m m.resume := by
  rw [State.resume, h]
  exact (resumeRolling_route m r).trans _ _ _ _ (finish_route _ r)

/-- Resumed before ROLLING, the procedure touches a route by its closes alone. -/
theorem resume_closing_route {m : State} (hidle : m.cutover.stage ≠ .idle) (hrolling : m.cutover.stage ≠ .rolling)
    (r : RouteNo) : RouteSame r m.resumeClosing m.resume := by
  rw [resume_closing m hidle hrolling]
  exact (resumeRolling_route _ r).trans _ _ _ _ (finish_route _ r)

/-- A route before the next route, and one that is not defined, is not asked (R144). -/
theorem resume_notAsked {m : State} {c : ClockTime} {cfg : Vector (Option RouteConfig) 4} {first r : RouteNo}
    (hm : IdleAt c cfg m) (hidle : m.cutover.stage ≠ .idle) (hrolling : m.cutover.stage ≠ .rolling)
    (hfirst : m.cutover.nextRoute = some first) (hr : r < first ∨ m.defined r = false) : RouteSame r m m.resume :=
  (closing_out c cfg m first r hm hfirst hr).trans _ _ _ _ (resume_closing_route hidle hrolling r)

/-- A defined route from the next route on is asked once to close: what the request leaves of it stands (R144, R147). -/
theorem resume_asked {m : State} {c : ClockTime} {cfg : Vector (Option RouteConfig) 4} {first r : RouteNo}
    (hm : IdleAt c cfg m) (hidle : m.cutover.stage ≠ .idle) (hrolling : m.cutover.stage ≠ .rolling)
    (hfirst : m.cutover.nextRoute = some first) (hle : first ≤ r) (hd : m.defined r = true) :
    ∃ u, IdleAt c cfg u ∧ RouteSame r m u ∧ RouteSame r (u.requestClose r .scheduled).1 m.resume := by
  obtain ⟨u, hu, hsame, hasked⟩ := closing_in c cfg m first r hm hfirst hle hd
  exact ⟨u, hu, hsame, hasked.trans _ _ _ _ (resume_closing_route hidle hrolling r)⟩

/-- A state that has the same of a route as one that keeps it keeps it. -/
theorem routeKept_of_same {s t u : State} {r : RouteNo} (h : RouteKept s t r) (hsame : RouteSame r t u) :
    RouteKept s u r := by
  obtain ⟨hqueue, haccount⟩ := hsame
  rw [RouteKept, hqueue, haccount]
  exact h

/-- No close is due where none is pending. -/
theorem noCloseDue_of_none {s : State} {r : RouteNo} (h : (s.queue r).pending = none) : NoCloseDue s r :=
  fun p hp => by cases h.symm.trans hp

section

variable {s : State} (straps : BitVec 6)

/-- Resumed in ROLLING, the procedure leaves a route where no close is due to its rewind. -/
theorem warmRestore_rolling_routeKept (hstage : s.cutover.stage = .rolling) {r : RouteNo} (h : NoCloseDue s r) :
    RouteKept s (s.warmRestore straps) r := by
  rw [warmRestore_mid]
  exact routeKept_of_same (restoreMid_routeKept straps h)
    (resume_rolling_route (restoreMid_stage s straps .rolling hstage) r)

variable (hidle : s.cutover.stage ≠ .idle) (hrolling : s.cutover.stage ≠ .rolling) {first r : RouteNo}
  (hfirst : s.cutover.nextRoute = some first)

include hidle hrolling hfirst

theorem warmRestore_closing_routeKept (hr : r < first ∨ s.defined r = false) (h : NoCloseDue s r) :
    RouteKept s (s.warmRestore straps) r := by
  have hnext : (restoreMid s straps).cutover.nextRoute = some first := (restoreMid_nextRoute s straps).trans hfirst
  have hdefined := restoreMid_defined s straps r
  have hstage := restoreMid_stage s straps _ rfl
  have hmid := restoreMid_idleAt s straps
  have hkept := restoreMid_routeKept straps h
  rw [warmRestore_mid]
  generalize restoreMid s straps = m at *
  exact routeKept_of_same hkept
    (resume_notAsked hmid (hstage ▸ hidle) (hstage ▸ hrolling) hnext (hdefined ▸ hr))

/-- The route a resumed procedure asks is as its rewind leaves it (R113, R144). -/
theorem warmRestore_asked (hle : first ≤ r) (hd : s.defined r = true) (hp : (s.queue r).pending = none) :
    ∃ u : State, IdleAt s.time s.status.config u ∧ u.queue r = (s.queue r).rewound r (s.storePlace r)
      (rewindEach (restoreStart s straps) (List.finRange 4)).qm.slots ∧ u.account r = s.account r ∧
      RouteSame r (u.requestClose r .scheduled).1 (s.warmRestore straps) := by
  have hnext : (restoreMid s straps).cutover.nextRoute = some first := (restoreMid_nextRoute s straps).trans hfirst
  have hdefined : (restoreMid s straps).defined r = true := (restoreMid_defined s straps r).trans hd
  have hstage := restoreMid_stage s straps _ rfl
  have hmid := restoreMid_idleAt s straps
  obtain ⟨hq, ha⟩ := restoreMid_notDue straps (noCloseDue_of_none hp)
  rw [warmRestore_mid]
  generalize restoreMid s straps = m at *
  obtain ⟨u, hu, hsame, hasked⟩ := resume_asked hmid (hstage ▸ hidle) (hstage ▸ hrolling) hnext hle hdefined
  exact ⟨u, hu, hsame.1.trans hq, hsame.2.trans ha, hasked⟩

/-- A route asked with its buffer FREE closes (R109, R144). -/
theorem warmRestore_asked_free (hle : first ≤ r) (hd : s.defined r = true) (hp : (s.queue r).pending = none)
    (hb : (s.queue r).buffer = none) : CloseDone s (s.warmRestore straps) r .scheduled := by
  obtain ⟨u, ⟨hengine, htime, -⟩, hq, ha, hsame⟩ := warmRestore_asked straps hidle hrolling hfirst hle hd hp
  have hp' : (u.queue r).pending = none := by
    rw [hq]
    exact hp
  have hb' : (u.queue r).buffer = none := by
    rw [hq]
    exact Option.map_eq_none_iff.mpr hb
  rw [requestClose_performed .scheduled hp' hb' (by rw [hengine]; rfl)] at hsame
  exact closeDone_of_performClose htime hq ha hsame

/-- A route asked with its buffer in use is deferred (R111, R144). -/
theorem warmRestore_asked_full (hle : first ≤ r) (hd : s.defined r = true) (hp : (s.queue r).pending = none)
    (hb : (s.queue r).buffer ≠ none) : (s.warmRestore straps).account r = s.account r ∧
    ((s.warmRestore straps).queue r).batch = (s.queue r).batch ∧
    ((s.warmRestore straps).queue r).pending = some ⟨.scheduled, .buffer, true⟩ := by
  obtain ⟨u, -, hq, ha, hqueue, haccount⟩ := warmRestore_asked straps hidle hrolling hfirst hle hd hp
  have hp' : (u.queue r).pending = none := by
    rw [hq]
    exact hp
  have hb' : (u.queue r).buffer ≠ none := by
    rw [hq]
    exact mt Option.map_eq_none_iff.mp hb
  rw [requestClose_deferred .scheduled hp' hb'] at hqueue haccount
  have hdeferred : (u.deferClose r .scheduled).queue r = { u.queue r with pending := some ⟨.scheduled, .buffer, true⟩ } :=
    Vec.get_put_same _ _ _
  rw [hqueue, hdeferred, hq]
  exact ⟨haccount.trans ha, rfl, rfl⟩

end

/-! ### Families rolled by a resumed procedure (R145, R147) -/

/-- With no roll to undo, the families from the next family on have their turn (R145, R147). -/
theorem warmRestore_family_turn {s : State} (straps : BitVec 6) (hidle : s.cutover.stage ≠ .idle)
    (hrolls : ∀ g, (s.family g).op ≠ .cutoverRoll) {first f : FamilyNo} (hfirst : s.cutover.nextFamily = some first)
    (hop : (s.family f).op = .none) : (s.warmRestore straps).family f =
      if first ≤ f ∧ (s.family f).now.rollAtCutover = true ∧ (s.family f).now.canRoll = true then
        Family.settled (s.family f).now.rolled
      else s.family f := by
  have hnext : (restoreMid s straps).cutover.nextFamily = some first := by
    rw [(restoreMid_next s straps hrolls).1, (restoreSettled_nextFamily s straps).1, hfirst]
  rw [warmRestore_mid, resume_family _ (restoreMid_underWay straps hidle), resumeRolling_family, hnext, restoreMid_family,
    undoneFamily_of_none hop]

/-- A procedure under way ends inside the restore (R145, R147). -/
theorem warmRestore_done {s : State} (straps : BitVec 6) (hidle : s.cutover.stage ≠ .idle) :
    holdsFlag (s.warmRestore straps).status.flags .cutoverDone = true ∧ (s.warmRestore straps).cutover.matchTime = none ∧
    (s.warmRestore straps).cutover.nextRoute = none ∧ (s.warmRestore straps).cutover.nextFamily = none := by
  rw [warmRestore_mid]
  exact ⟨resume_cutoverDone (restoreMid_underWay straps hidle), resume_done (restoreMid_underWay straps hidle)⟩

theorem restoreResumes (straps : BitVec 6) (s : State) : RestoreResumes s (s.warmRestore straps) := by
  intro hidle
  obtain ⟨hdone, hmatch, hroute, hfamily⟩ := warmRestore_done straps hidle
  refine ⟨hdone, hmatch, hroute, hfamily,
    fun hstage r => warmRestore_rolling_routeKept straps hstage, fun hrolling first hfirst r =>
      ⟨warmRestore_closing_routeKept straps hidle hrolling hfirst, fun hle hd hp =>
        ⟨warmRestore_asked_free straps hidle hrolling hfirst hle hd hp,
          warmRestore_asked_full straps hidle hrolling hfirst hle hd hp⟩⟩, fun hrolls first hfirst f hop => ?_⟩
  dsimp only
  rw [warmRestore_family_turn straps hidle hrolls hfirst hop]
  refine ⟨fun hturn => ?_, fun hno => if_neg fun hturn => hno ?_⟩
  · obtain ⟨hle, hcutover, hcan⟩ := hturn
    exact if_pos ⟨hle, hcutover, canRoll_iff.mpr hcan⟩
  · obtain ⟨hle, hcutover, hcan⟩ := hturn
    exact ⟨hle, hcutover, canRoll_iff.mp hcan⟩

/-- Settles O50: the restore stage by stage; what POWER_LOSS drops, a restore drops too. -/
theorem warmRestore : Obligations.WarmRestore := by
  refine ⟨fun straps s hdue => ⟨s.warmRestore straps, exec_warmRestore hdue, restoreStarts straps s, restoreRecords straps s,
    restoreBatches straps s, restoreFamilies straps s, restoreResumes straps s⟩, fun straps s t hon hmark hloss => ?_⟩
  rw [exec_powerLoss hon] at hloss
  cases hloss
  rw [exec_warmRestore (.inl hon), ← warmRestore_powerLoss]
  exact exec_warmRestore (.inr hmark)

end Sys2Proof.Machine
end

section
/-! The queue of commands (95_what_each_step_holds.md; logs 1, 2, 27): a step takes the command at the front, and no command
stops the part or touches a command that waits. -/

namespace Sys2Proof.Machine

/-- Settles O1: both clauses are the two cases of the queue of commands in `step`. -/
theorem stepTakesFrontCommand : Obligations.StepTakesFrontCommand := by
  refine ⟨fun c rest s hfront => ?front, fun s hempty => ?idle⟩
  case front => rw [step, hfront]
  case idle => rw [step, hempty]

/-! ### Closes, offers, acknowledgements, transmitters, the wrap -/

section

variable (s : State) (l : LinkId) (r : RouteNo)

@[simp] theorem requestClose_pending (why : CloseReason) : (s.requestClose r why).1.pending = s.pending := by
  rcases requestClose_cases s r why with ⟨p, -, e⟩ | ⟨-, -, e⟩ | ⟨-, -, -, e⟩ | ⟨-, -, -, e⟩ <;> rw [e] <;> rfl

@[simp] theorem askClose_pending : (s.askClose r).pending = s.pending := by
  unfold State.askClose
  split
  · exact requestClose_pending s r _
  · rfl

@[simp] theorem settleDeferred_pending : (s.settleDeferred r).pending = s.pending := by
  rcases settleDeferred_cases s r with e | ⟨p, -, -, e⟩ | ⟨p, -, -, -, e⟩ <;> rw [e] <;> rfl

@[simp] theorem settleWaiting_pending : (s.settleWaiting r).pending = s.pending := by
  rcases settleWaiting_cases s r with e | ⟨p, -, -, e⟩ <;> rw [e]
  rfl

@[simp] theorem dueClose_pending (last : Bool) : (s.dueClose r last).pending = s.pending := by
  rcases dueClose_cases s r last with e | ⟨why, -, e⟩ | e | e <;> rw [e] <;> rfl

theorem offer_pending {s s' : State} {r : RouteNo} {c : RouteConfig} {corr : Byte} {m : Message}
    (ho : s.offer r c corr = some (s', m)) : s'.pending = s.pending := by
  rcases offer_cases ho with ⟨slot, rec, e, -, rfl, -⟩ | ⟨cl, e, -, rfl, -⟩ <;> rfl

@[simp] theorem offerRun_pending (c : RouteConfig) (corr : Byte) (n : Nat) :
    (State.offerRun r c corr n s).state.pending = s.pending :=
  offerRun_keeps (fun t => t.pending = s.pending) (fun _ _ _ h _ ho => (offer_pending ho).trans h) n s rfl

@[simp] theorem takeDown_pending (why : DownReason) (cause : EndCause) :
    (s.takeDown r why cause).pending = s.pending := by
  cases hst : (s.route r).stream with
  | none => rw [takeDown_closed why cause hst]; rfl
  | some st => rw [takeDown_open why cause hst]; rfl

@[simp] theorem acknowledge_pending (c : RouteConfig) (id : Identity) : (s.acknowledge r c id).pending = s.pending := by
  unfold State.acknowledge
  rcases ackAtQueues_cases (s.setRoute r ((s.route r).unlisting c id)) r id with
    e | ⟨n, rec, -, -, -, e⟩ | ⟨cl, -, -, e⟩ <;> rw [e] <;> simp

@[simp] theorem acknowledgeAll_pending (c : RouteConfig) (ids : List Identity) :
    (s.acknowledgeAll r c ids).pending = s.pending :=
  acknowledgeAll_keeps (fun t => t.pending = s.pending) (fun t id h => (acknowledge_pending t r c id).trans h) ids s rfl

@[simp] theorem endByCount_pending (st : OpenStream) : (s.endByCount r st).pending = s.pending := by
  unfold State.endByCount
  split <;> rfl

@[simp] theorem serveStream_pending : (s.serveStream l r).pending = s.pending := by
  unfold State.serveStream
  split
  · split
    · next ho => simp [offer_pending ho]
    · rfl
  · rfl

@[simp] theorem nextMessage_pending : (s.nextMessage l).pending = s.pending := by
  unfold State.nextMessage
  split
  · rfl
  · split
    · exact serveStream_pending s l _
    · rfl

@[simp] theorem voidRecord_pending (till : Nat) (h : HistoryEntry) : (s.voidRecord r till h).pending = s.pending := by
  unfold State.voidRecord
  split
  · split <;> rfl
  · rfl

@[simp] theorem withdraw_pending (q : Request) (h : HistoryEntry) : (s.withdraw q h).pending = s.pending := by
  simp [State.withdraw]

/-- A grant is answered, reserves or withdraws (R84, R85, R92). -/
theorem settleGrant_pending (q : Request) (v : Verdict) : (s.settleGrant q v).pending = s.pending := by
  cases v with
  | refused code => rfl
  | duplicate h => rfl
  | withdraw h => exact withdraw_pending s q h
  | wrap p => rfl

@[simp] theorem resetLink_pending (rx : Receiver) : (s.resetLink l rx).pending = s.pending := by
  cases l <;> rfl

/-- A family's turn: its roll starts, or it is refused or passed over (R33, R145). -/
theorem rollTurn_pending (f : FamilyNo) : (s.rollTurn f).pending = s.pending := by
  unfold State.rollTurn
  dsimp only
  repeat' split
  all_goals rfl

/-- A load's end stores the root or refuses it (R29). -/
theorem finishLoad_pending (f : FamilyNo) (w : LoadWork) (root : Root) (check : BitVec 24) :
    (s.finishLoad f w root check).pending = s.pending := by
  unfold State.finishLoad
  dsimp only
  split <;> rfl

end

/-! ### The acts of requests -/

section

variable (l : LinkId) (corr b : Byte) (t : TerminalNo) (r : RouteNo) (c : RouteConfig) (s : State)

theorem wrapRequestAct_pending (kind : WrapKind) (i : LaneNo) (p : List Byte) :
    (wrapRequestAct kind i corr p s).pending = s.pending := by
  unfold wrapRequestAct
  repeat' split
  all_goals rfl

theorem laneHoldAct_pending (held : Bool) : (laneHoldAct held l corr b s).pending = s.pending := by
  unfold laneHoldAct
  repeat' split
  all_goals rfl

theorem enrolAct_pending (a : Place × Nat) : (enrolAct l corr t a s).pending = s.pending := by
  unfold enrolAct
  repeat' split
  all_goals rfl

theorem onEnrolled_pending {act : State → State} (hact : (act s).pending = s.pending) :
    (onEnrolled l corr t act s).pending = s.pending :=
  onEnrolled_keeps (fun u => u.pending = s.pending) (fun _ => rfl) hact

theorem releaseTerminalAct_pending : (releaseTerminalAct l corr t s).pending = s.pending := by
  refine onEnrolled_pending l corr t s ?_
  unfold releaseTerminalEnrolled
  split <;> rfl

theorem moveAct_pending (p : Place) : (moveAct l corr t p s).pending = s.pending := by
  refine onEnrolled_pending l corr t s ?_
  unfold moveEnrolled
  repeat' split
  all_goals rfl

theorem terminalQueryAct_pending : (terminalQueryAct l corr b s).pending = s.pending := by
  unfold terminalQueryAct
  split <;> rfl

theorem familyQueryAct_pending : (familyQueryAct l corr b s).pending = s.pending := by
  unfold familyQueryAct
  split <;> rfl

theorem routeQueryAct_pending : (routeQueryAct l corr b s).pending = s.pending := by
  unfold routeQueryAct
  repeat' split
  all_goals rfl

theorem setCeilingAct_pending (digits : List Byte) : (setCeilingAct l corr b digits s).pending = s.pending := by
  unfold setCeilingAct
  repeat' split
  all_goals rfl

theorem keyLoadAct_pending (a : LoadBytes) : (keyLoadAct l corr a s).pending = s.pending := by
  unfold keyLoadAct keyLoadFamily
  repeat' split
  all_goals rfl

theorem rollFamilyAct_pending : (rollFamilyAct l corr b s).pending = s.pending := by
  unfold rollFamilyAct rollFamilyOn
  dsimp only
  repeat' split
  all_goals rfl

theorem retireFamilyAct_pending : (retireFamilyAct l corr b s).pending = s.pending := by
  unfold retireFamilyAct retireFamilyOn
  dsimp only
  repeat' split
  all_goals rfl

theorem routeUpAct_pending : (routeUpAct l corr r c s).pending = s.pending := by
  unfold routeUpAct
  dsimp only
  split <;> rfl

theorem streamOpenAct_pending (n renew : Byte) : (streamOpenAct l corr n renew r c s).pending = s.pending := by
  unfold streamOpenAct
  repeat' split
  all_goals rfl

theorem setClockAct_pending (time : ClockTime) : (setClockAct l corr time s).pending = s.pending := by
  unfold setClockAct
  repeat' split
  all_goals rfl

theorem setCutoverAct_pending (a : Byte × Byte × Byte) : (setCutoverAct l corr a s).pending = s.pending := by
  unfold setCutoverAct
  repeat' split
  all_goals rfl

theorem faultReadAct_pending : (faultReadAct l corr s).pending = s.pending := by
  unfold faultReadAct
  dsimp only
  split <;> rfl

theorem routeDownAct_pending : (routeDownAct l corr r c s).pending = s.pending := by
  unfold routeDownAct
  dsimp only
  split
  · exact takeDown_pending s r .command .routeDown
  · rfl

theorem pullOneAct_pending : (pullOneAct l corr r c s).pending = s.pending := by
  unfold pullOneAct
  split
  · split
    · split
      · rfl
      · next s' m ho =>
        have hoffered : s'.pending = s.pending := offer_pending ho
        exact hoffered
    · rfl
  · rfl

theorem pullBlockAct_pending (n : Byte) : (pullBlockAct l corr n r c s).pending = s.pending := by
  unfold pullBlockAct
  split
  · exact offerRun_pending s r c corr _
  · rfl

theorem ackOneAct_pending (batch sq : Nat) : (ackOneAct l corr batch sq r c s).pending = s.pending := by
  unfold ackOneAct
  split
  · exact acknowledge_pending s r c _
  · rfl

theorem ackOldestAct_pending : (ackOldestAct l corr r c s).pending = s.pending := by
  unfold ackOldestAct
  split
  · rfl
  · exact acknowledge_pending s r c _

theorem ackThroughAct_pending (batch sq : Nat) : (ackThroughAct l corr batch sq r c s).pending = s.pending :=
  acknowledgeAll_pending s r c _

theorem closeBatchAct_pending : (closeBatchAct l corr b s).pending = s.pending := by
  unfold closeBatchAct
  split
  · split
    · rfl
    · split
      · split
        · exact requestClose_pending s _ .manual
        · rfl
      · rfl
  · rfl

theorem setupBeginAct_pending (a : Byte × Byte) : (setupBeginAct l corr a s).pending = s.pending := by
  unfold setupBeginAct
  repeat' split
  all_goals rfl

theorem routeDefineAct_pending (a : DefineBytes) : (routeDefineAct l corr a s).pending = s.pending := by
  unfold routeDefineAct routeDefineStaged
  repeat' split
  all_goals rfl

theorem setupEndAct_pending : (setupEndAct l corr s).pending = s.pending := by
  unfold setupEndAct
  repeat' split
  all_goals rfl

end

/-! ### The warm restore (R172) -/

section

variable (s : State)

theorem undoFamily_pending (f : FamilyNo) : (s.undoFamily f).pending = s.pending := by
  unfold State.undoFamily
  dsimp only
  split <;> rfl

theorem rollWhole_pending (f : FamilyNo) : (s.rollWhole f).pending = s.pending := by
  unfold State.rollWhole
  dsimp only
  repeat' split
  all_goals rfl

theorem resumeClosing_pending : s.resumeClosing.pending = s.pending := by
  unfold State.resumeClosing
  split
  · exact foldl_keeps (fun u => u.pending = s.pending) _ (fun u r h => (askClose_pending u r).trans h) _ _ rfl
  · rfl

theorem resumeRolling_pending : s.resumeRolling.pending = s.pending := by
  unfold State.resumeRolling
  split
  · exact foldl_keeps (fun u => u.pending = s.pending) _ (fun u f h => (rollWhole_pending u f).trans h) _ _ rfl
  · rfl

theorem resume_pending : s.resume.pending = s.pending := by
  unfold State.resume
  split
  · rfl
  · exact resumeRolling_pending s
  · exact (resumeRolling_pending _).trans (resumeClosing_pending s)

theorem settleAll_pending : s.settleAll.pending = s.pending :=
  foldl_keeps (fun u => u.pending = s.pending) _ (fun u r h => (settleWaiting_pending u r).trans h) _ _ rfl

theorem undoAll_pending : s.undoAll.pending = s.pending :=
  foldl_keeps (fun u => u.pending = s.pending) _ (fun u f h => (undoFamily_pending u f).trans h) _ _ rfl

theorem rewindEach_pending (rs : List RouteNo) : (rewindEach s rs).pending = s.pending :=
  foldl_keeps (fun u => u.pending = s.pending) _ (fun u r h => (State.rewind_pending u r).trans h) _ _ rfl

theorem restoreDispatch_pending : s.restoreDispatch.pending = s.pending := rfl

theorem restoreStart_pending (straps : BitVec 6) : (restoreStart s straps).pending = s.pending := rfl

/-- Rewinds, closes due, families undone and the resumed procedure leave the commands waiting (R172). -/
theorem warmRestore_pending (straps : BitVec 6) : (s.warmRestore straps).pending = s.pending := by
  rw [warmRestore_eq, resume_pending, State.releaseAll_pending, restoreDispatch_pending, undoAll_pending, settleAll_pending,
    rewindEach_pending, restoreStart_pending]

end

/-! ### Requests: the arrival and the checks of a command leave the commands waiting where its act does -/

section

variable {l : LinkId} {corr b : Byte} {p : List Byte} {s : State}

theorem request_pending {α : Type} {kind : Byte} {ring : Nat} {parse : List Byte → Option α} {spoil : State → State}
    {act : α → State → State} (hspoil : ∀ u, (spoil u).pending = u.pending)
    (hact : ∀ a u, (act a u).pending = u.pending) :
    (request kind ring parse spoil l corr p act s).pending = s.pending :=
  request_keeps (fun u => u.pending = s.pending) rfl id id (fun _ h _ => h) (fun _ _ h _ => h)
    (fun u h _ => (hspoil u).trans h) (fun a u _ _ h _ _ _ => (hact a u).trans h)

theorem plainRequest_pending {α : Type} {kind : Byte} {ring : Nat} {parse : List Byte → Option α}
    {act : α → State → State} (hact : ∀ a u, (act a u).pending = u.pending) :
    (request kind ring parse id l corr p act s).pending = s.pending :=
  request_pending (fun _ => rfl) hact

theorem laneRequest_pending {kind : Byte} {act : LaneNo → State → State}
    (hact : ∀ i u, (act i u).pending = u.pending) : (laneRequest kind l corr p act s).pending = s.pending :=
  laneRequest_keeps (fun u => u.pending = s.pending) rfl id id (fun _ h _ => h) (fun _ _ h _ => h)
    (fun i u _ h _ _ _ => (hact i u).trans h)

theorem routeRequest_pending {α : Type} {kind : Byte} {parse : List Byte → Option α} {route : α → Byte}
    {act : α → RouteNo → RouteConfig → State → State} (hact : ∀ a r c u, (act a r c u).pending = u.pending) :
    (request kind 1 parse id l corr p (fun a => onRoute l corr (route a) (act a)) s).pending = s.pending :=
  plainRequest_pending fun a u =>
    onRoute_keeps (fun v => v.pending = u.pending) (fun _ => rfl) fun r c _ _ => hact a r c u

theorem terminalRequest_pending {α β : Type} {kind : Byte} {parse : List Byte → Option α} {terminal : α → Byte}
    {fields : α → Option β} {act : TerminalNo → β → State → State} (hact : ∀ t a u, (act t a u).pending = u.pending) :
    (request kind 1 parse id l corr p (fun a => onTerminal l corr (terminal a) (fields a) act) s).pending = s.pending :=
  plainRequest_pending fun _ u =>
    onTerminal_keeps (fun v => v.pending = u.pending) (fun _ => rfl) fun t a _ => hact t a u

end

/-! ### Events -/

/-- A command comes to a next state with the commands that waited in `s` (logs 1 and 27). -/
def CompletesFrom (s : State) (o : Host.Outcome State Fault Refusal) : Prop :=
  ∃ t, o = .next t ∧ t.pending = s.pending

theorem completesFrom_next {s t : State} (h : t.pending = s.pending) : CompletesFrom s (.next t) := ⟨t, rfl, h⟩

section

variable (s : State)

theorem frameArrives_pending (l : LinkId) (body : List Byte) :
    (∃ t, frameArrives l body s = .gone t ∧ t.pending = s.pending) ∨
    (∃ t, frameArrives l body s = .taken t ∧ t.pending = s.pending) :=
  frameArrives_keeps (fun u => u.pending = s.pending) rfl (fun _ _ h => h) body

theorem execLinkReset_completes (l : LinkId) (corr : Byte) (p : List Byte) : CompletesFrom s (execLinkReset l corr p s) := by
  refine completesFrom_next ?_
  split
  · split
    · rcases frameArrives_pending s l (0x0F#8 :: corr :: p) with ⟨t, he, ht⟩ | ⟨t, he, ht⟩ <;> rw [he] <;> exact ht
    · exact resetLink_pending s l .hunting
  · rfl

theorem execFrameBad_completes (l : LinkId) (chars : List LineChar) : CompletesFrom s (execFrameBad l chars s) := by
  refine completesFrom_next ?_
  repeat' split
  all_goals rfl

theorem execLineBreak_completes (l : LinkId) : CompletesFrom s (execLineBreak l s) := by
  refine completesFrom_next ?_
  dsimp only
  split
  · exact resetLink_pending _ l .inBreak
  · rfl

theorem execUnknownKind_completes (l : LinkId) (corr kind : Byte) (p : List Byte) :
    CompletesFrom s (execUnknownKind l corr kind p s) := by
  refine completesFrom_next ?_
  split
  · rfl
  · rcases frameArrives_pending s l (kind :: corr :: p) with ⟨t, he, ht⟩ | ⟨t, he, ht⟩ <;> rw [he] <;> exact ht

theorem execGrant_completes : CompletesFrom s (execGrant s) := by
  refine completesFrom_next ?_
  split
  · split
    · rfl
    · split
      · rfl
      · exact settleGrant_pending _ _ _
  · rfl

theorem execCompletion_completes : CompletesFrom s (execCompletion s) := by
  refine completesFrom_next ?_
  split
  · split
    · next k w _ => exact (dueClose_pending _ _ _).trans (completeWrap_pending s k w)
    · rfl
  · rfl

theorem execLoadCompletion_completes (f : FamilyNo) : CompletesFrom s (execLoadCompletion f s) := by
  refine completesFrom_next ?_
  split
  · split
    · exact finishLoad_pending s f _ _ _
    · rfl
  · rfl

theorem execRollCompletion_completes (f : FamilyNo) : CompletesFrom s (execRollCompletion f s) := by
  refine completesFrom_next ?_
  repeat' split
  all_goals rfl

theorem execStreamOffer_completes (l : LinkId) : CompletesFrom s (execStreamOffer l s) := by
  refine completesFrom_next ?_
  split
  · exact nextMessage_pending s l
  · rfl

theorem execTransmitComplete_completes (l : LinkId) : CompletesFrom s (execTransmitComplete l s) := by
  refine completesFrom_next ?_
  split
  · exact nextMessage_pending _ l
  · rfl

theorem execAckTimerExpiry_completes (r : RouteNo) : CompletesFrom s (execAckTimerExpiry r s) := by
  refine completesFrom_next ?_
  split
  · exact takeDown_pending s r .timeout .timeout
  · rfl

theorem execTick_completes : CompletesFrom s (execTick s) := by
  refine completesFrom_next ?_
  dsimp only
  split <;> rfl

theorem execNearWarning_completes : CompletesFrom s (execNearWarning s) := by
  refine completesFrom_next ?_
  split <;> rfl

theorem execCutoverMatch_completes : CompletesFrom s (execCutoverMatch s) := by
  refine completesFrom_next ?_
  repeat' split
  all_goals rfl

theorem execCutoverClosingStart_completes : CompletesFrom s (execCutoverClosingStart s) := by
  refine completesFrom_next ?_
  split <;> rfl

theorem execCutoverRouteClose_completes : CompletesFrom s (execCutoverRouteClose s) := by
  refine completesFrom_next ?_
  split
  · split
    · exact askClose_pending s _
    · rfl
  · rfl

theorem execCutoverFamilyRoll_completes : CompletesFrom s (execCutoverFamilyRoll s) := by
  refine completesFrom_next ?_
  split
  · split
    · split
      · rfl
      · exact rollTurn_pending s _
    · rfl
  · rfl

theorem execDeferredClose_completes (r : RouteNo) : CompletesFrom s (execDeferredClose r s) := by
  refine completesFrom_next ?_
  split
  · exact settleDeferred_pending s r
  · rfl

theorem execWarmRestore_completes (straps : BitVec 6) : CompletesFrom s (execWarmRestore straps s) := by
  refine completesFrom_next ?_
  split
  · exact warmRestore_pending s straps
  · rfl

theorem execStoreLost_completes (straps : BitVec 6) : CompletesFrom s (execStoreLost straps s) := by
  refine completesFrom_next ?_
  split <;> rfl

theorem execResetLine_completes : CompletesFrom s (execResetLine s) := by
  refine completesFrom_next ?_
  split <;> rfl

theorem execPowerLoss_completes : CompletesFrom s (execPowerLoss s) := by
  refine completesFrom_next ?_
  split <;> rfl

end

/-! ### Every command -/

/-- Settles O2, by the command: a request by its act, an event by its own lemma. -/
theorem everyCommandCompletes : Obligations.EveryCommandCompletes := by
  intro c s
  cases c with
  | auth l corr p => exact completesFrom_next (laneRequest_pending fun i u => wrapRequestAct_pending corr u .auth i p)
  | refund l corr p => exact completesFrom_next (laneRequest_pending fun i u => wrapRequestAct_pending corr u .refund i p)
  | reversal l corr p => exact completesFrom_next (laneRequest_pending fun i u => wrapRequestAct_pending corr u .reversal i p)
  | laneStatus l corr p => exact completesFrom_next (laneRequest_pending fun _ _ => rfl)
  | linkReset l corr p => exact execLinkReset_completes s l corr p
  | frameBad l chars => exact execFrameBad_completes s l chars
  | lineBreak l => exact execLineBreak_completes s l
  | lineBreakEnd l => exact completesFrom_next rfl
  | grant => exact execGrant_completes s
  | completion => exact execCompletion_completes s
  | enrol l corr p => exact completesFrom_next (terminalRequest_pending fun t a u => enrolAct_pending l corr t u a)
  | holdTerminal l corr p => exact completesFrom_next (terminalRequest_pending fun t _ u => onEnrolled_pending l corr t u rfl)
  | releaseTerminal l corr p =>
    exact completesFrom_next (terminalRequest_pending fun t _ u => releaseTerminalAct_pending l corr t u)
  | move l corr p => exact completesFrom_next (terminalRequest_pending fun t a u => moveAct_pending l corr t u a)
  | retire l corr p => exact completesFrom_next (terminalRequest_pending fun t _ u => onEnrolled_pending l corr t u rfl)
  | setFloor l corr p => exact completesFrom_next (terminalRequest_pending fun t _ u => onEnrolled_pending l corr t u rfl)
  | terminalQuery l corr p => exact completesFrom_next (plainRequest_pending (terminalQueryAct_pending l corr))
  | keyLoad l corr p => exact completesFrom_next (plainRequest_pending fun a u => keyLoadAct_pending l corr u a)
  | loadCompletion f => exact execLoadCompletion_completes s f
  | rollFamily l corr p => exact completesFrom_next (plainRequest_pending (rollFamilyAct_pending l corr))
  | rollCompletion f => exact execRollCompletion_completes s f
  | retireFamily l corr p => exact completesFrom_next (plainRequest_pending (retireFamilyAct_pending l corr))
  | familyQuery l corr p => exact completesFrom_next (plainRequest_pending (familyQueryAct_pending l corr))
  | setCeiling l corr p =>
    exact completesFrom_next (plainRequest_pending fun a u => setCeilingAct_pending l corr a.1 u a.2)
  | holdLane l corr p => exact completesFrom_next (plainRequest_pending fun a u => laneHoldAct_pending l corr a u true)
  | releaseLane l corr p => exact completesFrom_next (plainRequest_pending fun a u => laneHoldAct_pending l corr a u false)
  | routeUp l corr p => exact completesFrom_next (routeRequest_pending fun _ => routeUpAct_pending l corr)
  | routeDown l corr p => exact completesFrom_next (routeRequest_pending fun _ => routeDownAct_pending l corr)
  | pullOne l corr p => exact completesFrom_next (routeRequest_pending fun _ => pullOneAct_pending l corr)
  | pullBlock l corr p =>
    exact completesFrom_next (routeRequest_pending fun a r c u => pullBlockAct_pending l corr r c u a.2)
  | streamOpen l corr p =>
    exact completesFrom_next (routeRequest_pending fun a r c u => streamOpenAct_pending l corr r c u a.2.1 a.2.2)
  | streamClose l corr p => exact completesFrom_next (routeRequest_pending fun _ _ _ _ => rfl)
  | streamOffer l => exact execStreamOffer_completes s l
  | transmitComplete l => exact execTransmitComplete_completes s l
  | ackOne l corr p =>
    exact completesFrom_next (routeRequest_pending fun a r c u => ackOneAct_pending l corr r c u a.2.1 a.2.2)
  | ackOldest l corr p => exact completesFrom_next (routeRequest_pending fun _ => ackOldestAct_pending l corr)
  | ackThrough l corr p =>
    exact completesFrom_next (routeRequest_pending fun a r c u => ackThroughAct_pending l corr r c u a.2.1 a.2.2)
  | ackTimerExpiry r => exact execAckTimerExpiry_completes s r
  | tick => exact execTick_completes s
  | nearWarning => exact execNearWarning_completes s
  | cutoverMatch => exact execCutoverMatch_completes s
  | cutoverClosingStart => exact execCutoverClosingStart_completes s
  | cutoverRouteClose => exact execCutoverRouteClose_completes s
  | cutoverFamilyRoll => exact execCutoverFamilyRoll_completes s
  | setClock l corr p => exact completesFrom_next (plainRequest_pending fun a u => setClockAct_pending l corr u a)
  | setCutover l corr p => exact completesFrom_next (plainRequest_pending fun a u => setCutoverAct_pending l corr u a)
  | closeBatch l corr p => exact completesFrom_next (plainRequest_pending (closeBatchAct_pending l corr))
  | deferredClose r => exact execDeferredClose_completes s r
  | setupBegin l corr p =>
    exact completesFrom_next (request_pending (fun _ => rfl) fun a u => setupBeginAct_pending l corr u a)
  | routeDefine l corr p =>
    exact completesFrom_next (request_pending (fun _ => rfl) fun a u => routeDefineAct_pending l corr u a)
  | setupEnd l corr p => exact completesFrom_next (request_pending (fun _ => rfl) fun _ => setupEndAct_pending l corr)
  | statusRead l corr p => exact completesFrom_next (plainRequest_pending fun _ _ => rfl)
  | faultRead l corr p => exact completesFrom_next (plainRequest_pending fun _ => faultReadAct_pending l corr)
  | routeQuery l corr p => exact completesFrom_next (plainRequest_pending (routeQueryAct_pending l corr))
  | erase l corr p => exact completesFrom_next (plainRequest_pending fun _ _ => rfl)
  | warmRestore straps => exact execWarmRestore_completes s straps
  | storeLost straps => exact execStoreLost_completes s straps
  | resetLine => exact execResetLine_completes s
  | powerLoss => exact execPowerLoss_completes s
  | retentionLoss => exact completesFrom_next rfl
  | unknownKind l corr kind p => exact execUnknownKind_completes s l corr kind p

end Sys2Proof.Machine
end
